-- ==== Sys2Proof/Word.lean ====
section
/-! DEFINITION. The words of the Stopwatch MTC block's interface (spec/30_encoding.md R75, R76, R81).
Bit 0 is the least significant bit of every one of them (00_scope.md R10, 20_memory.md R52). -/

namespace Sys2Proof

/-- The command word `cmd[3:0]`, format F_CMD (R75). -/
abbrev CmdWord := BitVec 4

/-- The event word `ev[4:0]`, format F_EVT (R76). -/
abbrev EvtWord := BitVec 5

/-- The display output word `{en[5:0], bus[3:0]}`, format F_DISP (R81). -/
abbrev DispWord := BitVec 10

/-- A word of one of the two formats the block's operations are encoded in (R70). The two are kept apart
because they never meet on one port: a command is presented on `cmd`, an event word is computed by the block
and presented nowhere (R76). -/
inductive OpWord where
  | cmd (w : CmdWord)
  | evt (w : EvtWord)
  deriving DecidableEq, Repr

end Sys2Proof
end

