-- ==== Sys2Proof/Syntax.lean ====
section
/-! DEFINITION. The block's operations: the eight commands, the reserved command codes and the five events,
one constructor per row of spec/opcode_table.json (30_encoding.md R70, R76, R77). No operation has an
operand (R79); `reserved` carries the code it was read from, since its row is a space of eight codes (R78). -/

namespace Sys2Proof

inductive Instr where
  /-- NOP, code `0000` (41_counter.md R127). -/
  | nop
  /-- INC_S, code `0001` (R128). -/
  | incS
  /-- DEC_S, code `0010` (R129). -/
  | decS
  /-- INC_M, code `0011` (R130). -/
  | incM
  /-- DEC_M, code `0100` (R131). -/
  | decM
  /-- INC_H, code `0101` (R132). -/
  | incH
  /-- DEC_H, code `0110` (R133). -/
  | decH
  /-- TGL, code `0111` (R134). -/
  | tgl
  /-- A reserved code, `1xxx` (R135); `op` is the whole field `op = cmd[3:0]` of R75. -/
  | reserved (op : CmdWord)
  /-- EXT_RESET, event bit 0 (44_control_interrupts.md R205). -/
  | extReset
  /-- EXT_PAUSE, event bit 1 (R206). -/
  | extPause
  /-- EXT_RESUME, event bit 2 (R207). -/
  | extResume
  /-- TICK_WRAP, event bit 3 (40_tick_generator.md R102). -/
  | tickWrap
  /-- TICK_APPLY, event bit 4 (41_counter.md R137). -/
  | tickApply
  deriving DecidableEq, Repr

end Sys2Proof
end

