-- ==== Sys2Proof/WellFormed.lean ====
section
/-! DEFINITION. Which terms of `Instr` stand for something that can be presented to the block. The one field
there is, the code of a reserved command, must lie in the reserved space (30_encoding.md R78). -/

namespace Sys2Proof

/-- `op` is a reserved code: `cmd[3] = 1` (R78). -/
def isReservedCode (op : CmdWord) : Bool := op.getLsbD 3

/-- The well-formed operations: everything but a `reserved` whose code is not reserved. -/
def Instr.wellFormed : Instr → Bool
  | .nop | .incS | .decS | .incM | .decM | .incH | .decH | .tgl => true
  | .reserved op => isReservedCode op
  | .extReset | .extPause | .extResume | .tickWrap | .tickApply => true

end Sys2Proof
end

