-- ==== Sys2Proof/Decode.lean ====
section
/-! DEFINITION. Decoding and encoding, both from the tables of spec/30_encoding.md: the command codes (R77)
and the bits of the event word (R76). -/

namespace Sys2Proof

/-- The command a code stands for (R77, R78). Total: codes 0 to 7 are defined, 8 to 15 are reserved. -/
def decodeCmd (w : CmdWord) : Instr :=
  match w.toNat with
  | 0 => .nop
  | 1 => .incS
  | 2 => .decS
  | 3 => .incM
  | 4 => .decM
  | 5 => .incH
  | 6 => .decH
  | 7 => .tgl
  | _ => .reserved w

/-- The events of an event word that take effect before the command of the same cycle: the consumed tick
(45_cycle_step.md R223 (1)). -/
def eventsBeforeCommand (w : EvtWord) : List Instr :=
  if w.getLsbD 4 then [.tickApply] else []

/-- The events of an event word that take effect after the command of the same cycle, in the order of
45_cycle_step.md R223: the wrap, the reset, then pause before resume. -/
def eventsAfterCommand (w : EvtWord) : List Instr :=
  (if w.getLsbD 3 then [.tickWrap] else []) ++ (if w.getLsbD 0 then [.extReset] else []) ++
    (if w.getLsbD 1 then [.extPause] else []) ++ (if w.getLsbD 2 then [.extResume] else [])

/-- Every event of an event word: each bit that is 1 is one event (R76). -/
def decodeEvents (w : EvtWord) : List Instr := eventsBeforeCommand w ++ eventsAfterCommand w

/-- The operations of one cycle, in the order of R223: its events and its one command. -/
def agendaOf (ev : EvtWord) (cmd : CmdWord) : List Instr :=
  eventsBeforeCommand ev ++ decodeCmd cmd :: eventsAfterCommand ev

/-- Why a word is not the encoding of exactly one operation. -/
inductive DecodeError where
  /-- An event word with no bit set: nothing happens. Safe: no operation is made up. -/
  | noEvent
  /-- An event word with several bits set: several events in one cycle (R76), not one operation. Safe. -/
  | severalEvents
  /-- Bits of neither format. Safe. -/
  | noFormat
  deriving DecidableEq, Repr

/-- The one operation a word of a format stands for. -/
def decode : OpWord → Except DecodeError Instr
  | .cmd w => .ok (decodeCmd w)
  | .evt w =>
    match decodeEvents w with
    | [] => .error .noEvent
    | [i] => .ok i
    | _ => .error .severalEvents

/-- The word of an operation: its code (R77), or the event word with its bit alone (R76). -/
def encode : Instr → OpWord
  | .nop => .cmd 0b0000#4
  | .incS => .cmd 0b0001#4
  | .decS => .cmd 0b0010#4
  | .incM => .cmd 0b0011#4
  | .decM => .cmd 0b0100#4
  | .incH => .cmd 0b0101#4
  | .decH => .cmd 0b0110#4
  | .tgl => .cmd 0b0111#4
  | .reserved op => .cmd op
  | .extReset => .evt 0b00001#5
  | .extPause => .evt 0b00010#5
  | .extResume => .evt 0b00100#5
  | .tickWrap => .evt 0b01000#5
  | .tickApply => .evt 0b10000#5

/-- The format of the opcode table's bits: 4 bits are an F_CMD word and 5 bits an F_EVT word (R75, R76).
DESIGN CHOICE (notes/assumptions/8.md): where the width is given in whole bytes, so that both formats have 8
bits, a value below 16 is a command and one from 16 to 31 an event word. -/
def tableWord (nbits w : Nat) : Except DecodeError OpWord :=
  if nbits = 5 then (if w < 32 then .ok (.evt (BitVec.ofNat 5 w)) else .error .noFormat)
  else if w < 16 then .ok (.cmd (BitVec.ofNat 4 w))
  else if nbits ≠ 4 ∧ w < 32 then .ok (.evt (BitVec.ofNat 5 w))
  else .error .noFormat

/-- The operation the decoder reads from a row's bits as spec/opcode_table.json numbers them. -/
def decodeTableWord (nbits w : Nat) : Option Instr :=
  match tableWord nbits w with
  | .ok ow => (decode ow).toOption
  | .error _ => none

end Sys2Proof
end

