-- ==== Sys2Proof/Config.lean ====
section
/-! DEFINITION. What an implementation fixes: the parameters of spec/00_scope.md R7 and those of the host
(92_eei_decisions.md D36, D37). The quantities derived from them stand in Machine/Params.lean. -/

namespace Sys2Proof

/-- An electrical level (R7: `POL_EN`, `POL_BUS`). -/
inductive Level where
  | high
  | low
  deriving DecidableEq, Repr

/-- The block's parameters (R7). They are fixed for a run (10_state.md, opening), so no step changes them. -/
structure Config where
  /-- `F_CLK`, the frequency of `clk` in Hz; OPEN in the spec (D2). `TICK_DIV = F_CLK` (D3). -/
  fClk : Nat
  /-- `DWELL`, the clock cycles each digit position is enabled; OPEN in the spec (D8). -/
  dwell : Nat
  /-- `U`, the clock cycles of the update window: 8 (D9), which a model may take as a parameter. -/
  u : Nat
  /-- `POL_EN`, the electrical level of an asserted digit-enable line; OPEN in the spec (D14). -/
  polEn : Level
  /-- `POL_BUS`, the electrical level of a 1 bit on the digit-value bus; OPEN in the spec (D14). -/
  polBus : Level
  deriving DecidableEq, Repr

/-- The reduced test configuration of 95_test_vectors.md section 0, the one concrete configuration the spec
gives. DESIGN CHOICE (notes/assumptions/1.md): `State.reset` carries it; the polarities, which no rule gives,
are `high`. Unsafe for a statement about `State.reset` alone. -/
def Config.testing : Config := { fClk := 50, dwell := 2, u := 8, polEn := .high, polBus := .high }

/-- `BUZZ_SOURCES`: which decrements count for `buzzerOn` (43_host_controller.md R180, OPEN, D36). -/
inductive BuzzSources where
  | tick
  | tickAndButtons
  deriving DecidableEq, Repr

/-- `BUZZ_IN_UP`: what happens to `buzzerOn` in CountUp (43_host_controller.md R180, OPEN, D37). -/
inductive BuzzInUp where
  | hold
  | clear
  deriving DecidableEq, Repr

/-- The two OPEN parameters of the host model. -/
structure BuzzConfig where
  sources : BuzzSources
  inUp : BuzzInUp
  deriving DecidableEq, Repr

end Sys2Proof
end

