-- ==== Sys2Proof/Machine/Params.lean ====
section
/-! DEFINITION. The quantities derived from the parameters (spec/00_scope.md R7), the register widths that
depend on them (10_state.md R20) and the checks on a configuration (70_reset_and_hazards.md R265). -/

namespace Sys2Proof

/-- `TICK_DIV = F_CLK` (R7, D3). -/
def Config.tickDiv (c : Config) : Nat := c.fClk

/-- `FRAME = 6 * DWELL + U` (R7). -/
def Config.frame (c : Config) : Nat := 6 * c.dwell + c.u

/-- The checks of R265: `F_CLK >= 1`, `DWELL >= 1`, `U >= 1`, `FRAME < TICK_DIV`; `TICK_DIV = F_CLK` holds by
`tickDiv`. -/
def Config.ok (c : Config) : Bool :=
  decide (1 ≤ c.fClk) && decide (1 ≤ c.dwell) && decide (1 ≤ c.u) && decide (c.frame < c.tickDiv)

/-- The flicker bound `6 * DWELL < 0.016 * F_CLK` (42_multiplexer.md R158), in whole numbers. A timing
obligation on a real configuration, not refused (R265). -/
def Config.flickerOk (c : Config) : Bool := decide (6 * c.dwell * 1000 < 16 * c.fClk)

/-- The reference configuration at a clock frequency: `DWELL = 0.002 * F_CLK` (R7, 42_multiplexer.md R158) and
`U = 8` (D9). DESIGN CHOICE (notes/assumptions/16.md): where `F_CLK` is no multiple of 500 the spec gives no rounding,
and the dwell is rounded down; below 500 Hz it is 0, which `Config.ok` refuses. -/
def Config.reference (fClk : Nat) (polEn polBus : Level) : Config :=
  { fClk, dwell := fClk / 500, u := 8, polEn, polBus }

/-- The width of `tcnt`: `ceil(log2(TICK_DIV))` (10_state.md R20). -/
def Config.tcntWidth (c : Config) : Nat := Nat.clog 2 c.tickDiv

/-- The width of `dcnt`: `ceil(log2(max(DWELL, U, 2)))` (10_state.md R20). -/
def Config.dcntWidth (c : Config) : Nat := Nat.clog 2 (max c.dwell (max c.u 2))

/-- How many cycles a slot lasts: `DWELL` for a render slot, `U` for the update window (42_multiplexer.md R153). -/
def Config.slotLength (c : Config) (slot : BitVec 3) : Nat := if slot < 6#3 then c.dwell else c.u

end Sys2Proof
end

