-- ==== Sys2Proof/Machine/State.lean ====
section
/-! DEFINITION. The block's state (spec/10_state.md R20) as plain data, with what the environment presents to
it, and why the model refuses. The block has no memory and no address space (20_memory.md R50). -/

namespace Sys2Proof.Machine

/-- The TimeValue `T = (hr, min, sec)`: the three time registers, unsigned binary (R20, R22; 00_scope.md R9). -/
structure TimeValue where
  hr : BitVec 5
  min : BitVec 6
  sec : BitVec 6
  deriving DecidableEq, Repr

/-- The three flops of one interrupt pin: the two-stage synchroniser `q1`, `q2` and the history flop `h` (R33). -/
structure Synchroniser where
  q1 : Bool
  q2 : Bool
  h : Bool
  deriving DecidableEq, Repr

/-- The inputs of one cycle (30_encoding.md R71): the per-cycle vector `(por, pin_rst, pin_pse, pin_rsm,
cmd[3:0])` of R82, sampled at the edge that ends the cycle. -/
structure Ports where
  por : Bool
  pinRst : Bool
  pinPse : Bool
  pinRsm : Bool
  cmd : CmdWord
  deriving DecidableEq, Repr

/-- The whole state: the elements of R20, then the MODEL's own fields `cfg` (the parameters of 00_scope.md R7,
notes/assumptions/1.md), `ports` and `script` (the inputs of this cycle and of the next ones,
notes/assumptions/2.md). -/
structure State where
  /-- `sec`, `min`, `hr` (R22). -/
  time : TimeValue
  /-- The Mode flag: `false` (0) CountUp, `true` (1) CountDown (R25). -/
  dir : Bool
  /-- The RunningState: `true` (1) Running, `false` (0) Stopped (R26). -/
  run : Bool
  /-- The PendingTick flag (R27). -/
  pend : Bool
  /-- The tick generator's counter, `0..TICK_DIV-1` (R29); its width depends on the configuration
  (notes/assumptions/10.md). -/
  tcnt : Nat
  /-- The slot of the display sequencer, `0..6` (R30). -/
  slot : BitVec 3
  /-- The cycle within the slot (R30). -/
  dcnt : Nat
  /-- `bus_r`, the digit-value output register, `0..9` (R32). -/
  busR : BitVec 4
  /-- `q1_rst`, `q2_rst`, `h_rst` (R33). -/
  syncRst : Synchroniser
  /-- `q1_pse`, `q2_pse`, `h_pse` (R33). -/
  syncPse : Synchroniser
  /-- `q1_rsm`, `q2_rsm`, `h_rsm` (R33). -/
  syncRsm : Synchroniser
  /-- MODEL's own: the parameters, which no step changes. -/
  cfg : Config
  /-- MODEL's own: the inputs presented in this cycle. -/
  ports : Ports
  /-- MODEL's own: the inputs of the following cycles, the next one first. -/
  script : List Ports
  deriving DecidableEq, Repr

/-- The host's duties of 43_host_controller.md R183. -/
inductive Duty where
  /-- (a): no reserved code in an update-window cycle. -/
  | noReservedCode
  /-- (b): NOP in every cycle outside the update window. -/
  | nopOutsideWindow
  /-- (c): NOP in the consume cycle, for a host that reads the time before and after the tick. -/
  | nopInConsumeCycle
  /-- (d): at most `U - 1` commands per window. -/
  | commandsPerWindow
  /-- (e): `por` at power-up. -/
  | porAtPowerUp
  deriving DecidableEq, Repr

/-- Faults: none. The block raises no exception and has no fault state (60_exceptions.md R240), and no
behaviour of it is treated as a fault or as stuck (93_implementation_defined.md section 1). -/
inductive Fault : Type
  deriving DecidableEq, Repr

/-- Why the model refuses. The hardware raises none of these (60_exceptions.md R240). -/
inductive Refusal where
  /-- Raised by `exec` for an instruction that has no meaning yet; no arm raises it. Safe. -/
  | notModelled (mnemonic : String)
  /-- Raised by `step`: the configuration breaks 70_reset_and_hazards.md R265. Safe: the spec asks the model to
  refuse it. -/
  | badConfiguration
  /-- Raised by every meaning, and so by `step` outside POR: the time value is outside its ranges, and a model
  must not give such a state a next value (10_state.md R24). Safe: no reachable state has one (R23). -/
  | timeOutOfRange
  /-- Raised by `step` outside POR: `slot`, `dcnt`, `tcnt` or `bus_r` is outside its legal values of R20. Safe:
  no reachable state has one (45_cycle_step.md R224); notes/assumptions/5.md. -/
  | registerOutOfRange
  /-- Raised by the contract monitor of Machine/Contract.lean only: the host broke a duty of R183. Safe. -/
  | hostContract (duty : Duty)
  deriving DecidableEq, Repr

/-- The inputs in a cycle with idle pins and no command: `pin_rst` and `pin_rsm` high, `pin_pse` low
(70_reset_and_hazards.md R264 (4)), NOP. -/
def Ports.idle : Ports := { por := false, pinRst := true, pinPse := false, pinRsm := true, cmd := 0#4 }

/-- The machine right after reset: the state `S_0` of cycle 0 (R20; 70_reset_and_hazards.md R260), with the
test configuration (DESIGN CHOICE, notes/assumptions/1.md), flops at the idle levels the pins have while `por`
falls (DESIGN CHOICE, notes/assumptions/3.md), idle inputs and an empty script (DESIGN CHOICE,
notes/assumptions/2.md). -/
def State.reset : State where
  time := { hr := 0#5, min := 0#6, sec := 0#6 }
  dir := false
  run := true
  pend := false
  tcnt := 0
  slot := 0#3
  dcnt := 0
  busR := 0#4
  syncRst := { q1 := true, q2 := true, h := true }
  syncPse := { q1 := false, q2 := false, h := false }
  syncRsm := { q1 := true, q2 := true, h := true }
  cfg := Config.testing
  ports := Ports.idle
  script := []

end Sys2Proof.Machine
end

