-- ==== Sys2Proof/Machine/Ops.lean ====
section
/-! DEFINITION. The named operations over the registers: their legal values (spec/10_state.md R20), the guard of
R24, one update per register, the POR state (70_reset_and_hazards.md R260) and the advance of the inputs. There
is no exception to take and none to return from (60_exceptions.md R240, R245, R246). -/

namespace Sys2Proof.Machine

/-- A valid triple: `sec <= 59`, `min <= 59`, `hr <= 23` (R20, R23). -/
def TimeValue.legal (t : TimeValue) : Bool :=
  decide (t.sec ≤ 59#6) && decide (t.min ≤ 59#6) && decide (t.hr ≤ 23#5)

/-- `00:00:00`. -/
def TimeValue.zero : TimeValue := { hr := 0#5, min := 0#6, sec := 0#6 }

/-- The number of seconds of a time value, `N(T) = 3600*hr + 60*min + sec` (41_counter.md R138). -/
def TimeValue.seconds (t : TimeValue) : Nat := 3600 * t.hr.toNat + 60 * t.min.toNat + t.sec.toNat

/-- The legal values of the other ranged registers (R20): `slot` in 0..6, `dcnt` below the slot's length, `tcnt`
below `TICK_DIV`, `bus_r` in 0..9. -/
def registersLegal (s : State) : Bool :=
  decide (s.slot ≤ 6#3) && decide (s.dcnt < s.cfg.slotLength s.slot) && decide (s.tcnt < s.cfg.tickDiv) &&
    decide (s.busR ≤ 9#4)

/-- Answer the next state `t`, unless the time value of `s` is one no operation is defined on (R24). -/
def onLegalTime (s t : State) : Host.Outcome State Fault Refusal :=
  if s.time.legal then .next t else .refused .timeOutOfRange

/-- Write the time registers. -/
def State.setTime (s : State) (t : TimeValue) : State := { s with time := t }

/-- Write `dir`. -/
def State.setDir (s : State) (b : Bool) : State := { s with dir := b }

/-- Write `run`. -/
def State.setRun (s : State) (b : Bool) : State := { s with run := b }

/-- Write `pend`. -/
def State.setPend (s : State) (b : Bool) : State := { s with pend := b }

/-- Write `tcnt`. -/
def State.setTcnt (s : State) (n : Nat) : State := { s with tcnt := n }

/-- The inputs of the cycle after this one: the next vector of the script; after its end the pins keep their
level and nothing is presented, as 30_encoding.md R82 says of a cycle no line claims (notes/assumptions/2.md). -/
def nextPorts (s : State) : Ports :=
  match s.script with
  | p :: _ => p
  | [] => { s.ports with por := false, cmd := 0#4 }

/-- Put the next cycle's inputs on the ports. -/
def advancePorts (s : State) : State := { s with ports := nextPorts s, script := s.script.tail }

/-- The three flops of a pin after a POR cycle: the level of the pin (44_control_interrupts.md R201). -/
def Synchroniser.hold (pin : Bool) : Synchroniser := { q1 := pin, q2 := pin, h := pin }

/-- The POR state (70_reset_and_hazards.md R260): nothing of the old state is read but the configuration and the
environment (45_cycle_step.md R221). -/
def porState (s : State) : State where
  time := TimeValue.zero
  dir := false
  run := true
  pend := false
  tcnt := 0
  slot := 0#3
  dcnt := 0
  busR := 0#4
  syncRst := Synchroniser.hold s.ports.pinRst
  syncPse := Synchroniser.hold s.ports.pinPse
  syncRsm := Synchroniser.hold s.ports.pinRsm
  cfg := s.cfg
  ports := s.ports
  script := s.script

end Sys2Proof.Machine
end

