-- ==== Sys2Proof/Machine/Operands.lean ====
section
/-! DEFINITION. What the operations read. No command or event has an encoded operand (spec/30_encoding.md R79):
their operands are conditions of the state, computed here once. -/

namespace Sys2Proof.Machine

/-- A falling edge on a synchronised pin: `h = 1 AND q2 = 0` (44_control_interrupts.md R202). -/
def Synchroniser.fell (y : Synchroniser) : Bool := y.h && !y.q2

/-- A rising edge on a synchronised pin: `h = 0 AND q2 = 1` (R202). -/
def Synchroniser.rose (y : Synchroniser) : Bool := !y.h && y.q2

/-- `rst_edge` (R202). -/
def rstEdge (s : State) : Bool := s.syncRst.fell

/-- `pse_edge` (R202). -/
def pseEdge (s : State) : Bool := s.syncPse.rose

/-- `rsm_edge` (R202). -/
def rsmEdge (s : State) : Bool := s.syncRsm.fell

/-- `wrap = (run = 1) AND (tcnt = TICK_DIV - 1)` (40_tick_generator.md R101). -/
def wrap (s : State) : Bool := s.run && decide (s.tcnt = s.cfg.tickDiv - 1)

/-- `win = (slot = 6)`: the update window (42_multiplexer.md R156, 41_counter.md R136). -/
def inWindow (s : State) : Bool := decide (s.slot = 6#3)

/-- `consume = (slot = 6) AND (dcnt = 0)`: the consume cycle (42_multiplexer.md R156). -/
def consume (s : State) : Bool := inWindow s && decide (s.dcnt = 0)

/-- `tick_done = consume AND (pend = 1)` (41_counter.md R137). -/
def tickDone (s : State) : Bool := consume s && s.pend

/-- The event word `ev[4:0]` of the cycle, from the state alone (30_encoding.md R76). -/
def eventWord (s : State) : EvtWord :=
  BitVec.ofBool (tickDone s) ++ BitVec.ofBool (wrap s) ++ BitVec.ofBool (rsmEdge s) ++
    BitVec.ofBool (pseEdge s) ++ BitVec.ofBool (rstEdge s)

end Sys2Proof.Machine
end

