-- ==== Sys2Proof/Machine/Flags.lean ====
section
/-! DEFINITION. The flags `dir`, `run` and `pend` and every computation of one of them (spec/10_state.md R25 to
R27). There are no condition codes: no operation reports a carry, a borrow or an overflow (R28). -/

namespace Sys2Proof.Machine

/-- `tick_out = wrap AND NOT rst_edge` (40_tick_generator.md R102). -/
def tickOut (s : State) : Bool := wrap s && !rstEdge s

/-- `pend` after a wrap: set when the tick is out (R103), else as it was. -/
def pendAfterWrap (s : State) : Bool := s.pend || tickOut s

/-- `pend` after the consume cycle's tick application: cleared (40_tick_generator.md R104). -/
def pendAfterApply : Bool := false

/-- `run_a` of 44_control_interrupts.md R206. -/
def runAfterPause (s : State) : Bool := if pseEdge s then false else s.run

/-- `run'` of 44_control_interrupts.md R207, from the `run_a` that stands in `s`. -/
def runAfterResume (s : State) : Bool := if rsmEdge s then true else s.run

/-- `dir2` of a TGL (41_counter.md R134). -/
def dirAfterToggle (s : State) : Bool := !s.dir

end Sys2Proof.Machine
end

