-- ==== Sys2Proof/Machine/Counter.lean ====
section
/-! DEFINITION. The time counter (spec/41_counter.md): the six arithmetic functions (R121 to R126), the commands
(R127 to R136) and the consumed tick (R137). -/

namespace Sys2Proof.Machine

/-- `inc_m`, increment_minutes, with the 24-hour rollover (R122). -/
def TimeValue.incM (t : TimeValue) : TimeValue :=
  if t.min < 59#6 then { t with min := t.min + 1#6 }
  else if t.hr < 23#5 then { t with hr := t.hr + 1#5, min := 0#6 }
  else TimeValue.zero

/-- `inc_s`, increment_seconds, cascading (R121). -/
def TimeValue.incS (t : TimeValue) : TimeValue :=
  if t.sec < 59#6 then { t with sec := t.sec + 1#6 } else TimeValue.incM { t with sec := 0#6 }

/-- `dec_m`, decrement_minutes (R124). -/
def TimeValue.decM (t : TimeValue) : TimeValue :=
  if 0#6 < t.min then { t with min := t.min - 1#6 }
  else if 0#5 < t.hr then { t with hr := t.hr - 1#5, min := 59#6 }
  else t

/-- `dec_s`, decrement_seconds, cascading, with the floor at 00:00:00 (R123). -/
def TimeValue.decS (t : TimeValue) : TimeValue :=
  if 0#6 < t.sec then { t with sec := t.sec - 1#6 }
  else if t.min = 0#6 ∧ t.hr = 0#5 then TimeValue.zero
  else { t.decM with sec := 59#6 }

/-- `inc_h`, the manual hours increment, clamped at 23 (R125). -/
def TimeValue.incH (t : TimeValue) : TimeValue :=
  if t.hr < 23#5 then { t with hr := t.hr + 1#5 } else t

/-- `dec_h`, the manual hours decrement, clamped at 0 (R126). -/
def TimeValue.decH (t : TimeValue) : TimeValue :=
  if 0#5 < t.hr then { t with hr := t.hr - 1#5 } else t

/-- A command that acts on the time value: only in the update window, and ignored elsewhere (R136). -/
def applyCommand (f : TimeValue → TimeValue) (s : State) : Host.Outcome State Fault Refusal :=
  onLegalTime s (if inWindow s then s.setTime (f s.time) else s)

/-- NOP (R127). -/
def execNop (s : State) : Host.Outcome State Fault Refusal := applyCommand (fun t => t) s

/-- INC_S (R128). -/
def execIncS (s : State) : Host.Outcome State Fault Refusal := applyCommand TimeValue.incS s

/-- DEC_S (R129). -/
def execDecS (s : State) : Host.Outcome State Fault Refusal := applyCommand TimeValue.decS s

/-- INC_M (R130). -/
def execIncM (s : State) : Host.Outcome State Fault Refusal := applyCommand TimeValue.incM s

/-- DEC_M (R131). -/
def execDecM (s : State) : Host.Outcome State Fault Refusal := applyCommand TimeValue.decM s

/-- INC_H (R132). -/
def execIncH (s : State) : Host.Outcome State Fault Refusal := applyCommand TimeValue.incH s

/-- DEC_H (R133). -/
def execDecH (s : State) : Host.Outcome State Fault Refusal := applyCommand TimeValue.decH s

/-- TGL (R134): flips `dir`, in the update window only (R136). -/
def execTgl (s : State) : Host.Outcome State Fault Refusal :=
  onLegalTime s (if inWindow s then s.setDir (dirAfterToggle s) else s)

/-- A reserved code (R135): no state change, and nothing raised. That a RUN which presents one in the update
window is refused (30_encoding.md R78) is the contract monitor's (Machine/Contract.lean; notes/assumptions/4.md). -/
def execReserved (_op : CmdWord) (s : State) : Host.Outcome State Fault Refusal :=
  applyCommand (fun t => t) s

/-- One tick applied to a time value: up in CountUp (`dir = 0`), down in CountDown (R137). -/
def TimeValue.tick (t : TimeValue) (dir : Bool) : TimeValue := if dir then t.decS else t.incS

/-- TICK_APPLY (R137), which is gated by its own event condition `tick_done`; the flag it consumes is cleared
(40_tick_generator.md R104). -/
def execTickApply (s : State) : Host.Outcome State Fault Refusal :=
  onLegalTime s
    (if tickDone s then (s.setTime (s.time.tick s.dir)).setPend pendAfterApply else s)

end Sys2Proof.Machine
end

