-- ==== Sys2Proof/Machine/Interrupts.lean ====
section
/-! DEFINITION. The control interrupts (spec/44_control_interrupts.md): the actions of the reset, pause and
resume edges (R205 to R207) and the pin synchronisers (R201). Each action is gated by its own edge, as its
pseudocode is. The edges are always enabled: there is no mask and no pending latch (R203). -/

namespace Sys2Proof.Machine

/-- EXT_RESET (R205): the time value and the tick counter to 0; `run`, `dir`, `pend`, the sequencer and `bus_r`
are left alone. -/
def execExtReset (s : State) : Host.Outcome State Fault Refusal :=
  onLegalTime s (if rstEdge s then (s.setTime TimeValue.zero).setTcnt 0 else s)

/-- EXT_PAUSE (R206): Stopped, on a pause edge. -/
def execExtPause (s : State) : Host.Outcome State Fault Refusal :=
  onLegalTime s (s.setRun (runAfterPause s))

/-- EXT_RESUME (R207): Running, on a resume edge. -/
def execExtResume (s : State) : Host.Outcome State Fault Refusal :=
  onLegalTime s (s.setRun (runAfterResume s))

/-- One sampling edge of a synchroniser: `q1' = pin`, `q2' = q1`, `h' = q2` (R201). -/
def Synchroniser.sample (y : Synchroniser) (pin : Bool) : Synchroniser := { q1 := pin, q2 := y.q1, h := y.q2 }

/-- The three synchronisers after the edge that ends the cycle of `s`, in `t` (R201). -/
def samplePins (s t : State) : State :=
  { t with
    syncRst := s.syncRst.sample s.ports.pinRst
    syncPse := s.syncPse.sample s.ports.pinPse
    syncRsm := s.syncRsm.sample s.ports.pinRsm }

end Sys2Proof.Machine
end

