-- ==== Sys2Proof/Machine/TickGenerator.lean ====
section
/-! DEFINITION. The tick generator (spec/40_tick_generator.md): the wrap event and the counting that runs in
every cycle. -/

namespace Sys2Proof.Machine

/-- TICK_WRAP (R101 to R103), gated by its own event condition `wrap`: the counter restarts from 0 and the tick
raises PendingTick, unless a reset edge in the same cycle suppresses it (R102). -/
def execTickWrap (s : State) : Host.Outcome State Fault Refusal :=
  onLegalTime s (if wrap s then (s.setTcnt 0).setPend (pendAfterWrap s) else s)

/-- The counting of R101 in a cycle whose state before the edge is `s`, applied to `t`: one more cycle while
Running. A wrap and a reset edge have already restarted the counter by their own events. -/
def countUp (s t : State) : State :=
  if s.run && !wrap s && !rstEdge s then t.setTcnt (s.tcnt + 1) else t

end Sys2Proof.Machine
end

