-- ==== Sys2Proof/Machine/Dispatch.lean ====
section
/-! DEFINITION. One arm per row of the opcode table. -/

namespace Sys2Proof.Machine

def exec (i : Instr) (s : State) : Host.Outcome State Fault Refusal :=
  match i with
  | .nop => Sys2Proof.Machine.execNop s
  | .incS => Sys2Proof.Machine.execIncS s
  | .decS => Sys2Proof.Machine.execDecS s
  | .incM => Sys2Proof.Machine.execIncM s
  | .decM => Sys2Proof.Machine.execDecM s
  | .incH => Sys2Proof.Machine.execIncH s
  | .decH => Sys2Proof.Machine.execDecH s
  | .tgl => Sys2Proof.Machine.execTgl s
  | .reserved op => Sys2Proof.Machine.execReserved op s
  | .extReset => Sys2Proof.Machine.execExtReset s
  | .extPause => Sys2Proof.Machine.execExtPause s
  | .extResume => Sys2Proof.Machine.execExtResume s
  | .tickWrap => Sys2Proof.Machine.execTickWrap s
  | .tickApply => Sys2Proof.Machine.execTickApply s

end Sys2Proof.Machine
end

