-- ==== Sys2Proof/Machine/Multiplexer.lean ====
section
/-! DEFINITION. The display multiplexer (spec/42_multiplexer.md): the digit positions and the digit split
(R150, R151), the frame's sequencer (R153) and the digit-value bus register (R155). -/

namespace Sys2Proof.Machine

/-- The six digit positions, in the scan order (R150). -/
inductive Position where
  | secOnes
  | secTens
  | minOnes
  | minTens
  | hrOnes
  | hrTens
  deriving DecidableEq, Repr

/-- The position driven in a slot: position `k` in slot `k`, none in the update window (R150, R154). -/
def Position.ofSlot (slot : BitVec 3) : Option Position :=
  match slot.toNat with
  | 0 => some .secOnes
  | 1 => some .secTens
  | 2 => some .minOnes
  | 3 => some .minTens
  | 4 => some .hrOnes
  | 5 => some .hrTens
  | _ => none

/-- The ones place, `value % 10`, on the 4-bit bus (R151). -/
def onesOf (value : Nat) : BitVec 4 := BitVec.ofNat 4 (value % 10)

/-- The tens place, `value / 10`, on the 4-bit bus (R151). -/
def tensOf (value : Nat) : BitVec 4 := BitVec.ofNat 4 (value / 10)

/-- `digit(k, T)` (R151). -/
def digit : Position → TimeValue → BitVec 4
  | .secOnes, t => onesOf t.sec.toNat
  | .secTens, t => tensOf t.sec.toNat
  | .minOnes, t => onesOf t.min.toNat
  | .minTens, t => tensOf t.min.toNat
  | .hrOnes, t => onesOf t.hr.toNat
  | .hrTens, t => tensOf t.hr.toNat

/-- `dcnt = last`, the last cycle of the slot (R153). -/
def lastOfSlot (s : State) : Bool := decide (s.dcnt = s.cfg.slotLength s.slot - 1)

/-- `slot'` (R153). -/
def nextSlot (s : State) : BitVec 3 :=
  if lastOfSlot s then BitVec.ofNat 3 ((s.slot.toNat + 1) % 7) else s.slot

/-- `dcnt'` (R153). -/
def nextDcnt (s : State) : Nat := if lastOfSlot s then 0 else s.dcnt + 1

/-- The sequencer after the edge that ends the cycle of `s`, in `t` (R153). -/
def advanceSequencer (s t : State) : State := { t with slot := nextSlot s, dcnt := nextDcnt s }

/-- The bus register after the edge that ends the cycle of `s`, in `t` whose time value is the one after the
edge: loaded at the edge that starts a render slot, else kept (R155). -/
def latchBus (s t : State) : State :=
  if lastOfSlot s then
    match Position.ofSlot (nextSlot s) with
    | some p => { t with busR := digit p t.time }
    | none => t
  else t

/-- The digit-enable lines: `en[k] = (slot = k)` for `k` in 0..5 (R154). -/
def enableLines (slot : BitVec 3) : BitVec 6 :=
  BitVec.ofBool (decide (slot = 5#3)) ++ BitVec.ofBool (decide (slot = 4#3)) ++
    BitVec.ofBool (decide (slot = 3#3)) ++ BitVec.ofBool (decide (slot = 2#3)) ++
    BitVec.ofBool (decide (slot = 1#3)) ++ BitVec.ofBool (decide (slot = 0#3))

end Sys2Proof.Machine
end

