-- ==== Sys2Proof/Machine/Cycle.lean ====
section
/-! DEFINITION. One clock cycle (spec/45_cycle_step.md): its operations run in the order of R223, then the parts
that run in every cycle close it. Every part reads the values before the edge (00_scope.md R11):
notes/assumptions/7.md says why running the operations one after the other keeps that. -/

namespace Sys2Proof.Machine

/-- Run one operation on the answer of what came before. -/
def thenExec (o : Host.Outcome State Fault Refusal) (i : Instr) : Host.Outcome State Fault Refusal :=
  match o with
  | .next t => exec i t
  | .fault r => .fault r
  | .refused r => .refused r

/-- Run a list of operations, the first one first. -/
def execAll (is : List Instr) (s : State) : Host.Outcome State Fault Refusal := is.foldl thenExec (.next s)

/-- The operations of the cycle of `s`: the events of its event word and the command on its port (R220, R223). -/
def agenda (s : State) : List Instr := agendaOf (eventWord s) s.ports.cmd

/-- What every cycle does whatever its operations were (R223 (6)), from the state `s` before the edge, on the
state `t` its operations left: counting, the bus register, the sequencer, the synchronisers, and the inputs of
the next cycle. -/
def closeCycle (s t : State) : State :=
  advancePorts (samplePins s (advanceSequencer s (latchBus s (countUp s t))))

/-- The edge that ends a cycle with `por = 0` (R220). -/
def runCycle (s : State) : Host.Outcome State Fault Refusal :=
  match execAll (agenda s) s with
  | .next t => .next (closeCycle s t)
  | .fault r => .fault r
  | .refused r => .refused r

/-- One clock edge: a configuration that breaks 70_reset_and_hazards.md R265 is refused; with `por = 1` the POR
state, whatever the state is (R221); else R220, defined on the legal register values only (R224;
notes/assumptions/5.md). -/
def clockEdge (s : State) : Host.Outcome State Fault Refusal :=
  if !s.cfg.ok then .refused .badConfiguration
  else if s.ports.por then .next (advancePorts (porState s))
  else if !registersLegal s then .refused .registerOutOfRange
  else runCycle s

/-- The flops of a pin with an active falling edge in this cycle, or with none. -/
def Synchroniser.withFall (y : Synchroniser) (b : Bool) : Synchroniser :=
  if b then { y with q2 := false, h := true } else if y.fell then { y with h := y.q2 } else y

/-- The flops of a pin with an active rising edge in this cycle, or with none. -/
def Synchroniser.withRise (y : Synchroniser) (b : Bool) : Synchroniser :=
  if b then { y with q2 := true, h := false } else if y.rose then { y with h := y.q2 } else y

/-- `s` with the tick counter at its wrap in this cycle, or not. -/
def State.withWrap (s : State) (b : Bool) : State :=
  if b then { s with run := true, tcnt := s.cfg.tickDiv - 1 } else if wrap s then { s with tcnt := 0 } else s

/-- `s` in the consume cycle with a pending tick, or not consuming a tick. -/
def State.withTickDone (s : State) (b : Bool) : State :=
  if b then { s with slot := 6#3, dcnt := 0, pend := true }
  else if tickDone s then { s with pend := false } else s

/-- `s` whose event word is `w`: each event's condition is met where its bit is 1, and not met where it is 0. -/
def State.withEventWord (s : State) (w : EvtWord) : State :=
  let t := (s.withWrap (w.getLsbD 3)).withTickDone (w.getLsbD 4)
  { t with
    syncRst := s.syncRst.withFall (w.getLsbD 0)
    syncPse := s.syncPse.withRise (w.getLsbD 1)
    syncRsm := s.syncRsm.withFall (w.getLsbD 2)
    ports := { s.ports with por := false, cmd := 0#4 } }

/-- `s` with the command `w` presented in an update-window cycle (the one it is in, else the first). -/
def State.withCommand (s : State) (w : CmdWord) : State :=
  { s with
    slot := 6#3
    dcnt := if inWindow s then s.dcnt else 0
    ports := { s.ports with por := false, cmd := w } }

/-- `s` with a word of either format where the next step takes its operations from (notes/assumptions/9.md). -/
def State.withOpWord (s : State) : OpWord → State
  | .cmd w => s.withCommand w
  | .evt w => s.withEventWord w

end Sys2Proof.Machine
end

