-- ==== Sys2Proof/Machine/Step.lean ====
section
/-! DEFINITION. The step of the machine: one clock edge (spec/45_cycle_step.md R220, R221). -/

namespace Sys2Proof.Machine

/-- One step is one clock edge. -/
def step (s : State) : Host.Outcome State Fault Refusal := clockEdge s

/-- `s` with the word of an opcode-table row where the next step takes its operation from: a command on the port
in an update-window cycle, an event by the condition it is computed from. Bits of neither format change nothing.
It stands for what the host and the environment do (notes/assumptions/9.md). -/
def State.withFetchWord (s : State) (nbits w : Nat) : State :=
  match tableWord nbits w with
  | .ok ow => s.withOpWord ow
  | .error _ => s

end Sys2Proof.Machine
end

