-- ==== Sys2Proof/Machine/Outputs.lean ====
section
/-! DEFINITION. The block's outputs (spec/30_encoding.md R72 to R74, R81; 45_cycle_step.md R222;
70_reset_and_hazards.md R261). Observing one changes nothing (20_memory.md R56): they are functions of the state. -/

namespace Sys2Proof.Machine

/-- The output ports, as logical values (00_scope.md R13). -/
structure Outputs where
  en : BitVec 6
  bus : BitVec 4
  updWin : Bool
  tickOut : Bool
  tickDone : Bool
  pauseEvt : Bool
  tSec : BitVec 6
  tMin : BitVec 6
  tHr : BitVec 5
  dir : Bool
  run : Bool
  ledUp : Bool
  ledDown : Bool
  deriving DecidableEq, Repr

/-- The outputs in a cycle with `por = 1`: constants (70_reset_and_hazards.md R261). -/
def Outputs.duringPor : Outputs where
  en := 0#6
  bus := 0#4
  updWin := false
  tickOut := false
  tickDone := false
  pauseEvt := false
  tSec := 0#6
  tMin := 0#6
  tHr := 0#5
  dir := false
  run := true
  ledUp := true
  ledDown := false

/-- The outputs in a cycle with `por = 0`: a function of the registers alone (45_cycle_step.md R222). -/
def outputsRunning (s : State) : Outputs where
  en := enableLines s.slot
  bus := s.busR
  updWin := inWindow s
  tickOut := tickOut s
  tickDone := tickDone s
  pauseEvt := pseEdge s
  tSec := s.time.sec
  tMin := s.time.min
  tHr := s.time.hr
  dir := s.dir
  run := s.run
  ledUp := !s.dir
  ledDown := s.dir

/-- The outputs of a cycle (R222, R261). -/
def outputs (s : State) : Outputs := if s.ports.por then Outputs.duringPor else outputsRunning s

/-- The display output word F_DISP, `{en[5:0], bus[3:0]}` (30_encoding.md R81). -/
def Outputs.display (o : Outputs) : DispWord := o.en ++ o.bus

/-- The electrical levels of lines whose logical 1 is driven at level `pol` (30_encoding.md R72); bit 1 is a
high line. -/
def electrical {n : Nat} (pol : Level) (lines : BitVec n) : BitVec n :=
  match pol with
  | .high => lines
  | .low => ~~~ lines

/-- The electrical levels of the digit-enable lines (`POL_EN`, 00_scope.md R7). -/
def enableLevels (s : State) : BitVec 6 := electrical s.cfg.polEn (outputs s).en

/-- The electrical levels of the digit-value bus (`POL_BUS`, 00_scope.md R7). -/
def busLevels (s : State) : BitVec 4 := electrical s.cfg.polBus (outputs s).bus

end Sys2Proof.Machine
end

