-- ==== Sys2Proof/Machine/Controller.lean ====
section
/-! DEFINITION. The source's own host, the Input & Mode Controller (spec/43_host_controller.md R170 to R182),
beside the block: its button flags, latch and buzzer, and the command it presents in each cycle. It is no part of
the block (00_scope.md R5) and none of its state is block state; `State`, `exec` and `step` do not use it.
notes/assumptions/14.md says how its iteration is laid over the cycles of a frame. -/

namespace Sys2Proof.Machine

/-- The seven buttons (R171), in the fixed issue order of R176. -/
inductive Button where
  | hoursUp
  | hoursDown
  | minutesUp
  | minutesDown
  | secondsUp
  | secondsDown
  | modeToggle
  deriving DecidableEq, Repr

/-- One bit per button. -/
structure ButtonBits where
  hoursUp : Bool
  hoursDown : Bool
  minutesUp : Bool
  minutesDown : Bool
  secondsUp : Bool
  secondsDown : Bool
  modeToggle : Bool
  deriving DecidableEq, Repr

/-- The seven buttons in the issue order of R176. -/
def Button.all : List Button :=
  [.hoursUp, .hoursDown, .minutesUp, .minutesDown, .secondsUp, .secondsDown, .modeToggle]

/-- The bit of one button. -/
def ButtonBits.get (b : ButtonBits) : Button → Bool
  | .hoursUp => b.hoursUp
  | .hoursDown => b.hoursDown
  | .minutesUp => b.minutesUp
  | .minutesDown => b.minutesDown
  | .secondsUp => b.secondsUp
  | .secondsDown => b.secondsDown
  | .modeToggle => b.modeToggle

/-- The electrical levels of the host's inputs, `true` a high line: a button is pressed, and the stop-buzzer input
asserted, when its line reads low (R171). -/
structure HostLines where
  buttons : ButtonBits
  stopBuzzer : Bool
  deriving DecidableEq, Repr

/-- `pressed(b)` (R171). -/
def HostLines.pressed (l : HostLines) (b : Button) : Bool := !l.buttons.get b

/-- The action of a button fires at a poll: pressed while Armed (R173). -/
def fires (pressed armed : Bool) : Bool := pressed && armed

/-- `armed_b` after a poll (R173): a press disarms, a released button is Armed. -/
def armedAfter (pressed armed : Bool) : Bool := if pressed then (if armed then false else armed) else true

/-- The seven flags after one poll (R173). -/
def pollArmed (l : HostLines) (a : ButtonBits) : ButtonBits where
  hoursUp := armedAfter (l.pressed .hoursUp) a.hoursUp
  hoursDown := armedAfter (l.pressed .hoursDown) a.hoursDown
  minutesUp := armedAfter (l.pressed .minutesUp) a.minutesUp
  minutesDown := armedAfter (l.pressed .minutesDown) a.minutesDown
  secondsUp := armedAfter (l.pressed .secondsUp) a.secondsUp
  secondsDown := armedAfter (l.pressed .secondsDown) a.secondsDown
  modeToggle := armedAfter (l.pressed .modeToggle) a.modeToggle

/-- The buttons whose action fires at a poll, in the issue order of R176. -/
def pollActions (l : HostLines) (a : ButtonBits) : List Button :=
  Button.all.filter fun b => fires (l.pressed b) (a.get b)

/-- The command of a button's action (R175). -/
def Button.command : Button → Instr
  | .hoursUp => .incH
  | .hoursDown => .decH
  | .minutesUp => .incM
  | .minutesDown => .decM
  | .secondsUp => .incS
  | .secondsDown => .decS
  | .modeToggle => .tgl

/-- The code the host presents for a button's action (R175, 30_encoding.md R77). -/
def Button.code (b : Button) : CmdWord :=
  match encode b.command with
  | .cmd w => w
  | .evt _ => 0#4

/-- `buzzerOn` after a qualifying decrement from `before` to `after`, with the latch of that instant (R180). -/
def buzzerOnAfter (latch buzzerOn : Bool) (before after : TimeValue) : Bool :=
  if latch then false
  else if before ≠ TimeValue.zero ∧ after = TimeValue.zero then true
  else if after ≠ TimeValue.zero then false
  else buzzerOn

/-- A button's command is a qualifying decrement (R180): a DEC_S or DEC_M while `dir = 1`, if `BUZZ_SOURCES`
counts buttons. -/
def buttonQualifies (k : BuzzConfig) (dir : Bool) (b : Button) : Bool :=
  decide (k.sources = .tickAndButtons) && dir && (decide (b = .secondsDown) || decide (b = .minutesDown))

/-- A qualifying decrement whose result the host has still to read: the time value before it, what the decrement
makes of that value, and the latch at that instant (R180). -/
structure Decrement where
  before : TimeValue
  after : TimeValue
  latch : Bool
  deriving DecidableEq, Repr

/-- The host's state. -/
structure Controller where
  /-- `armed_b` of the seven buttons (R173). -/
  armed : ButtonBits
  /-- StopBuzzerLatch (R174, R177 to R179). -/
  latch : Bool
  /-- `buzzerOn` (R180). -/
  buzzerOn : Bool
  /-- The buzzer line (R181). -/
  buzzer : Bool
  /-- How many cycles of the present update window have passed. -/
  windowPos : Nat
  /-- Actions that fired and whose command is still to be presented (R176, R183 (d)). -/
  waiting : List Button
  /-- The qualifying decrement whose result is still to be read. -/
  decrement : Option Decrement
  deriving DecidableEq, Repr

/-- The host after POR (R174). DESIGN CHOICE (notes/assumptions/17.md): the buzzer line starts at 0, which no rule
states; R174 gives the flags, the latch and `buzzerOn`, and R181 first drives the line at the end of an iteration. -/
def Controller.initial : Controller where
  armed := ⟨true, true, true, true, true, true, true⟩
  latch := false
  buzzerOn := false
  buzzer := false
  windowPos := 0
  waiting := []
  decrement := none

/-- The time value the host reads on the block's outputs. -/
def Outputs.time (o : Outputs) : TimeValue := { hr := o.tHr, min := o.tMin, sec := o.tSec }

/-- A pause clears the latch (R179). -/
def Controller.seePause (c : Controller) (o : Outputs) : Controller :=
  if o.pauseEvt then { c with latch := false } else c

/-- `buzzerOn` is updated for the qualifying decrement still to be settled, whose result is `after` (R180). -/
def Controller.settle (c : Controller) (after : Decrement → TimeValue) : Controller :=
  match c.decrement with
  | some d => { c with buzzerOn := buzzerOnAfter d.latch c.buzzerOn d.before (after d), decrement := none }
  | none => c

/-- The result of the decrement made in the cycle before is read on the outputs (R176, R180). -/
def Controller.seeDecrement (c : Controller) (o : Outputs) : Controller := c.settle fun _ => o.time

/-- A consumed tick in CountDown is a qualifying decrement (R180). -/
def Controller.noteTick (c : Controller) (o : Outputs) : Controller :=
  if o.tickDone && o.dir then
    { c with decrement := some { before := o.time, after := o.time.decS, latch := c.latch } }
  else c

/-- The poll of the seven buttons, once per iteration (R173, R176). DESIGN CHOICE (notes/assumptions/18.md): the
actions carried from the window before (R183 (d)) stand before the newly fired ones. -/
def Controller.poll (c : Controller) (l : HostLines) : Controller :=
  { c with armed := pollArmed l c.armed, waiting := c.waiting ++ pollActions l c.armed }

/-- What a button's decrement makes of a time value (R175). -/
def Button.decremented (b : Button) (t : TimeValue) : TimeValue := if b = .minutesDown then t.decM else t.decS

/-- The command of the next waiting action is presented in this cycle (R176); a toggle clears the latch (R177). -/
def Controller.issue (k : BuzzConfig) (c : Controller) (o : Outputs) : Controller × CmdWord :=
  match c.waiting with
  | [] => (c, 0#4)
  | b :: bs =>
    ({ c with
        waiting := bs
        latch := if b = .modeToggle then false else c.latch
        decrement :=
          if buttonQualifies k o.dir b then
            some { before := o.time, after := b.decremented o.time, latch := c.latch }
          else none },
      b.code)

/-- The end of an iteration, in the last cycle of its update window (R170): a decrement made in this very cycle is
settled, the stop-buzzer input is sensed (R178), `buzzerOn` is cleared where the iteration leaves CountUp (`dir = 0`)
and `BUZZ_IN_UP` says so (R180), and the buzzer line is driven (R181). -/
def Controller.endIteration (k : BuzzConfig) (c : Controller) (l : HostLines) (dir : Bool) : Controller :=
  let c := c.settle Decrement.after
  let latch := c.latch || !l.stopBuzzer
  let on := if !dir && decide (k.inUp = .clear) then false else c.buzzerOn
  { c with latch := latch, buzzerOn := on, buzzer := on && !latch, windowPos := 0 }

/-- The host in the window cycle `windowPos` of `u` (R176): NOP and the tick in the consume cycle, the commands of
the waiting actions in the later ones. It polls in the first cycle that can take a command; a window of one cycle has
none, and is polled in that cycle. -/
def Controller.window (k : BuzzConfig) (u : Nat) (c : Controller) (l : HostLines) (o : Outputs) :
    Controller × CmdWord :=
  let polled := if c.windowPos = min 1 (u - 1) then c.poll l else c
  if c.windowPos = 0 then (polled.noteTick o, 0#4) else polled.issue k o

/-- The Mode after the host's command of a window cycle (41_counter.md R134). -/
def Outputs.dirAfter (o : Outputs) (cmd : CmdWord) : Bool := if cmd = 7#4 then !o.dir else o.dir

/-- The host in one cycle, from the block's outputs of the cycle: its next state and the command it presents. The
iteration is one frame and ends with its update window of `u` cycles (R170); outside the window it presents NOP
(R183 (b)) and `buzzer` holds (R181). -/
def Controller.cycle (k : BuzzConfig) (u : Nat) (c : Controller) (l : HostLines) (o : Outputs) :
    Controller × CmdWord :=
  let c := (c.seePause o).seeDecrement o
  if o.updWin then
    let w := c.window k u l o
    if c.windowPos + 1 < u then ({ w.1 with windowPos := c.windowPos + 1 }, w.2)
    else (w.1.endIteration k l (o.dirAfter w.2), w.2)
  else ({ c with windowPos := 0 }, 0#4)

/-- The block and its host together. -/
structure System where
  block : State
  host : Controller
  deriving DecidableEq, Repr

/-- One cycle of the whole system: the host decides its command from the outputs of the cycle (70_reset_and_hazards.md
R273), the environment the pins, and the block takes its step; a POR cycle starts the host afresh (R174). -/
def System.cycle (k : BuzzConfig) (l : HostLines) (pins : Ports) (y : System) :
    Host.Outcome System Fault Refusal :=
  let seen : State := { y.block with ports := { pins with cmd := 0#4 } }
  let (host, cmd) :=
    if pins.por then (Controller.initial, 0#4) else Controller.cycle k seen.cfg.u y.host l (outputs seen)
  match step { seen with ports := { pins with cmd := cmd } } with
  | .next t => .next { block := t, host := host }
  | .fault r => .fault r
  | .refused r => .refused r

end Sys2Proof.Machine
end

