-- ==== Sys2Proof/Machine/Script.lean ====
section
/-! DEFINITION. The stimulus scripts of spec/30_encoding.md (R82) and their pseudo-instructions (R83), expanded to
the per-cycle input vectors that are a script's encoding. -/

namespace Sys2Proof.Machine

/-- The three interrupt pins (44_control_interrupts.md R200). -/
inductive Pin where
  | rst
  | pse
  | rsm
  deriving DecidableEq, Repr

/-- A line of a script (R82). -/
inductive Line where
  /-- `CMD <mnemonic>`. -/
  | cmd (i : Instr)
  /-- `CMD@0 <mnemonic>`. -/
  | cmdAt0 (i : Instr)
  /-- `PIN <RST|PSE|RSM> <0|1>`. -/
  | pin (p : Pin) (level : Bool)
  /-- `WAIT <n>`. -/
  | wait (n : Nat)
  /-- `FRAMES <n>`. -/
  | frames (n : Nat)
  /-- `TICKS <n>`. -/
  | ticks (n : Nat)
  /-- `POR`. -/
  | por
  deriving DecidableEq, Repr

/-- `PULSE`: a pulse of `n` cycles to the active level of the pin's edge and back (R83). -/
def pulse (p : Pin) (n : Nat) : List Line :=
  match p with
  | .rst => [.pin .rst false, .wait n, .pin .rst true]
  | .rsm => [.pin .rsm false, .wait n, .pin .rsm true]
  | .pse => [.pin .pse true, .wait n, .pin .pse false]

/-- `SETH <h>` (R83). -/
def setH (h : Nat) : List Line := List.replicate h (.cmd .incH)

/-- `SETM <m>` (R83). -/
def setM (m : Nat) : List Line := List.replicate m (.cmd .incM)

/-- `SETS <s>` (R83). -/
def setS (s : Nat) : List Line := List.replicate s (.cmd .incS)

/-- `DOWN`, where the Mode is `dir` (R83). -/
def down (dir : Bool) : List Line := if dir then [] else [.cmd .tgl]

/-- `UP`, where the Mode is `dir` (R83). -/
def up (dir : Bool) : List Line := if dir then [.cmd .tgl] else []

/-- Where an expansion stands: the current cycle `c`, counted from POR, and the pin levels from it on. -/
structure Cursor where
  cycle : Nat
  pinRst : Bool
  pinPse : Bool
  pinRsm : Bool
  deriving DecidableEq, Repr

/-- The cursor at a script's start: the idle pin levels (R82). -/
def Cursor.start (cycle : Nat) : Cursor := { cycle, pinRst := true, pinPse := false, pinRsm := true }

/-- The vector of one cycle with the cursor's pin levels. -/
def Cursor.vector (k : Cursor) (por : Bool) (cmd : CmdWord) : Ports :=
  { por, pinRst := k.pinRst, pinPse := k.pinPse, pinRsm := k.pinRsm, cmd }

/-- `n` cycles no line claims: NOP. -/
def Cursor.idle (k : Cursor) (n : Nat) : List Ports := List.replicate n (k.vector false 0#4)

/-- The cycles from cycle `c` to the first command cycle (`slot = 6`, `dcnt >= 1`) at or after it, by the frame
law (42_multiplexer.md R157); none when `U = 1` gives the window no such cycle. -/
def untilCommandCycle (cfg : Config) (c : Nat) : Option Nat :=
  if cfg.u ≤ 1 then none else some (6 * cfg.dwell + 1 - c % cfg.frame)

/-- The cycles from cycle `c` to the first consume cycle at or after it (R157). -/
def untilConsumeCycle (cfg : Config) (c : Nat) : Nat :=
  if c % cfg.frame ≤ 6 * cfg.dwell then 6 * cfg.dwell - c % cfg.frame
  else cfg.frame - c % cfg.frame + 6 * cfg.dwell

/-- The code of a command; an event has none, for no script line presents one. -/
def codeOf (i : Instr) : Option CmdWord :=
  match encode i with
  | .cmd w => some w
  | .evt _ => none

/-- The vectors of one line, and the cursor after it (R82). -/
def Line.expand (cfg : Config) (k : Cursor) : Line → Option (List Ports × Cursor)
  | .cmd i =>
    match codeOf i, untilCommandCycle cfg k.cycle with
    | some w, some n => some (k.idle n ++ [k.vector false w], { k with cycle := k.cycle + n + 1 })
    | _, _ => none
  | .cmdAt0 i =>
    match codeOf i with
    | some w =>
      let n := untilConsumeCycle cfg k.cycle
      some (k.idle n ++ [k.vector false w], { k with cycle := k.cycle + n + 1 })
    | none => none
  | .pin .rst level => some ([], { k with pinRst := level })
  | .pin .pse level => some ([], { k with pinPse := level })
  | .pin .rsm level => some ([], { k with pinRsm := level })
  | .wait n => some (k.idle n, { k with cycle := k.cycle + n })
  | .frames n => some (k.idle (n * cfg.frame), { k with cycle := k.cycle + n * cfg.frame })
  | .ticks n => some (k.idle (n * cfg.tickDiv), { k with cycle := k.cycle + n * cfg.tickDiv })
  | .por => some ([k.vector true 0#4], { k with cycle := 0 })

/-- A script's encoding: one input vector a cycle (R82). None where a line cannot be presented. -/
def expand (cfg : Config) : Cursor → List Line → Option (List Ports)
  | _, [] => some []
  | k, l :: ls =>
    match l.expand cfg k with
    | none => none
    | some (vs, k') => (expand cfg k' ls).map (vs ++ ·)

/-- `s` with a script's vectors as its inputs, the first in the present cycle. -/
def State.withScript (s : State) : List Ports → State
  | [] => s
  | v :: vs => { s with ports := v, script := vs }

end Sys2Proof.Machine
end

