-- ==== Sys2Proof/Machine/Contract.lean ====
section
/-! DEFINITION. The host's duties (spec/43_host_controller.md R183) as a monitor of a run: it refuses, with the
duty's name, a run in which the host breaks one (R183, 30_encoding.md R78, 93_implementation_defined.md items 4
and 7). The block itself raises nothing (60_exceptions.md R240), so neither `exec` nor `step` refuses for it
(notes/assumptions/4.md, notes/assumptions/13.md). -/

namespace Sys2Proof.Machine

/-- Which of the two duties that are a policy of the host are watched. -/
structure Policy where
  /-- Watch duty (b), which changes nothing in the block (93_implementation_defined.md item 7). -/
  nopOutsideWindow : Bool
  /-- Watch duty (c), a duty of a host that needs the time before and after the tick. -/
  nopInConsumeCycle : Bool
  deriving DecidableEq, Repr

/-- What the monitor remembers of the run. -/
structure Monitor where
  /-- `por` has been asserted since power-up. -/
  powered : Bool
  /-- The commands presented in this update window so far. -/
  commands : Nat
  deriving DecidableEq, Repr

/-- At power-up. -/
def Monitor.start : Monitor := { powered := false, commands := 0 }

/-- The monitor's count of this window's commands, with this cycle's. -/
def Monitor.count (m : Monitor) (s : State) : Nat :=
  if inWindow s then (if s.ports.cmd = 0#4 then m.commands else m.commands + 1) else 0

/-- The first duty the host breaks in the cycle of `s`, if it breaks one (R183). A POR cycle is no window cycle:
`upd_win` is 0 in it (70_reset_and_hazards.md R261) and no command is read (45_cycle_step.md R221). DESIGN CHOICE (notes/assumptions/13.md): no duty binds in a POR
cycle, duty (b) neither, so any code may stand on `cmd` there. -/
def dutyBroken (k : Policy) (m : Monitor) (s : State) : Option Duty :=
  if s.ports.por then none
  else if !m.powered then some .porAtPowerUp
  else if inWindow s && isReservedCode s.ports.cmd then some .noReservedCode
  else if k.nopOutsideWindow && !inWindow s && decide (s.ports.cmd ≠ 0#4) then some .nopOutsideWindow
  else if k.nopInConsumeCycle && consume s && decide (s.ports.cmd ≠ 0#4) then some .nopInConsumeCycle
  else if decide (s.cfg.u - 1 < m.count s) then some .commandsPerWindow
  else none

/-- What the monitor remembers after the cycle of `s`. -/
def Monitor.advance (m : Monitor) (s : State) : Monitor :=
  { powered := m.powered || s.ports.por, commands := if s.ports.por then 0 else m.count s }

/-- One step of a watched run: refused when the host breaks a duty in this cycle, else the block's step. -/
def watchedStep (k : Policy) (m : Monitor) (s : State) : Host.Outcome State Fault Refusal :=
  match dutyBroken k m s with
  | some d => .refused (.hostContract d)
  | none => step s

/-- `n` steps of a watched run. -/
def watchedRun (k : Policy) : Nat → Monitor → State → Host.Outcome State Fault Refusal
  | 0, _, s => .next s
  | n + 1, m, s =>
    match watchedStep k m s with
    | .next t => watchedRun k n (m.advance s) t
    | .fault r => .fault r
    | .refused r => .refused r

end Sys2Proof.Machine
end

