-- ==== Sys2Proof/Safety.lean ====
section
/-! DEFINITION. The terms claims use: a state the step is defined on, the invariants of spec/45_cycle_step.md
R224, and runs of several cycles. -/

namespace Sys2Proof.Machine

/-- The states R220 is defined on: a configuration that meets 70_reset_and_hazards.md R265 and registers at
legal values of 10_state.md R20. -/
structure Legal (s : State) : Prop where
  cfg : s.cfg.ok = true
  time : s.time.legal = true
  regs : registersLegal s = true

/-- The invariants of R224, each about one state. Of its last one, `bus_r = digit(slot, T_c)` with `T_c` the time
value in the first cycle of the slot, this is the part about that first cycle. -/
structure Inv (s : State) : Prop extends Legal s where
  bus : ∀ p, Position.ofSlot s.slot = some p → s.dcnt = 0 → s.busR = digit p s.time

/-- The table `cmd_apply` of 41_counter.md R136, on a command code, a time value and the Mode. -/
def cmdApply (w : CmdWord) (t : TimeValue) (dir : Bool) : TimeValue × Bool :=
  match w.toNat with
  | 1 => (t.incS, dir)
  | 2 => (t.decS, dir)
  | 3 => (t.incM, dir)
  | 4 => (t.decM, dir)
  | 5 => (t.incH, dir)
  | 6 => (t.decH, dir)
  | 7 => (t, !dir)
  | _ => (t, dir)

/-- `T1` of R137: the time value after the cycle's tick application. -/
def afterTick (s : State) : TimeValue :=
  if s.slot = 6#3 ∧ s.dcnt = 0 ∧ s.pend = true then (if s.dir = false then s.time.incS else s.time.decS) else s.time

/-- `(T2, dir2)` of R136: the time value and the Mode after the cycle's command. -/
def afterCommand (s : State) : TimeValue × Bool :=
  if s.slot = 6#3 then cmdApply s.ports.cmd (afterTick s) s.dir else (afterTick s, s.dir)

/-- `t` is the state `k` clock cycles after `s`. -/
def After (k : Nat) (s t : State) : Prop := Host.Core.run Sys2Proof.core k s = .next t

/-- `p` holds in each of `k` consecutive cycles, the first of which is that of `s`. -/
def holdsFor (p : State → Bool) : Nat → State → Bool
  | 0, _ => true
  | k + 1, s =>
    p s && (match step s with
      | .next t => holdsFor p k t
      | .fault _ => false
      | .refused _ => false)

/-- No POR in this cycle or in any cycle of the script. -/
def NoPor (s : State) : Prop := s.ports.por = false ∧ ∀ p ∈ s.script, p.por = false

/-- The command presented `n` cycles after the cycle of `s`, as long as the script reaches; NOP after its end. -/
def cmdAfter (s : State) : Nat → CmdWord
  | 0 => s.ports.cmd
  | n + 1 =>
    match s.script[n]? with
    | some p => p.cmd
    | none => 0#4

/-- The time value, as natural numbers `(hr, min, sec)`. -/
def TimeValue.triple (t : TimeValue) : Nat × Nat × Nat := (t.hr.toNat, t.min.toNat, t.sec.toNat)

/-- The position of a state's cycle in its frame, `n mod FRAME` of 42_multiplexer.md R157. -/
def framePhase (s : State) : Nat := s.slot.toNat * s.cfg.dwell + s.dcnt

end Sys2Proof.Machine
end

