-- ==== Sys2Proof/Certificates/Slice0/Obligations.lean ====
section
/-! DEFINITION. The statements for the provers. Each names in its docstring what it states; OBLIGATIONS.json has the
rules of spec/ each rests on. -/

open Sys2Proof Sys2Proof.Machine

/-- Each command code decodes to its command, codes 8 to 15 to reserved.
Rests on: 30_encoding.md section 3, R77, R78. -/
def Obligations.CommandCodesDecode : Prop :=
  decodeCmd 0b0000#4 = .nop ∧ decodeCmd 0b0001#4 = .incS ∧ decodeCmd 0b0010#4 = .decS ∧
    decodeCmd 0b0011#4 = .incM ∧ decodeCmd 0b0100#4 = .decM ∧ decodeCmd 0b0101#4 = .incH ∧
    decodeCmd 0b0110#4 = .decH ∧ decodeCmd 0b0111#4 = .tgl ∧
    ∀ w : CmdWord, w.getLsbD 3 = true → decodeCmd w = .reserved w

/-- Decoding an encoded well-formed operation gives it back, and only its own word decodes to it.
Rests on: 30_encoding.md section 3, R75 to R78. -/
def Obligations.DecodeAndEncodeAgree : Prop :=
  (∀ i : Instr, i.wellFormed = true → decode (encode i) = .ok i) ∧
    ∀ (w : OpWord) (i : Instr), decode w = .ok i → i.wellFormed = true ∧ encode i = w

/-- The event word's bits are the five conditions, and it decodes to exactly the events whose bit is 1.
Rests on: 30_encoding.md section 3, R76. -/
def Obligations.EventWordNamesItsEvents : Prop :=
  (∀ s : State,
    (eventWord s).getLsbD 0 = (s.syncRst.h && !s.syncRst.q2) ∧
    (eventWord s).getLsbD 1 = (!s.syncPse.h && s.syncPse.q2) ∧
    (eventWord s).getLsbD 2 = (s.syncRsm.h && !s.syncRsm.q2) ∧
    (eventWord s).getLsbD 3 = (s.run && decide (s.tcnt = s.cfg.fClk - 1)) ∧
    (eventWord s).getLsbD 4 = (decide (s.slot = 6#3) && decide (s.dcnt = 0) && s.pend)) ∧
  ∀ (w : EvtWord) (e : Instr), e ∈ decodeEvents w ↔
    (e = .extReset ∧ w.getLsbD 0 = true) ∨ (e = .extPause ∧ w.getLsbD 1 = true) ∨
    (e = .extResume ∧ w.getLsbD 2 = true) ∨ (e = .tickWrap ∧ w.getLsbD 3 = true) ∨
    (e = .tickApply ∧ w.getLsbD 4 = true)

/-- withFetchWord puts a command on the port in the window, and makes the event word the given one. The model's choice, notes/assumptions/9.md.
Rests on: 30_encoding.md section 3, R75, R76, notes/assumptions/9.md. -/
def Obligations.WithFetchWordPresentsTheWord : Prop :=
  (∀ (s : State) (w : CmdWord),
    (s.withFetchWord 4 w.toNat).ports.cmd = w ∧ (s.withFetchWord 4 w.toNat).slot = 6#3 ∧
      (s.withFetchWord 4 w.toNat).ports.por = false) ∧
  ∀ (s : State) (w : EvtWord), s.cfg.ok = true →
    eventWord (s.withFetchWord 5 w.toNat) = w ∧ (s.withFetchWord 5 w.toNat).ports.cmd = 0#4 ∧
      (s.withFetchWord 5 w.toNat).ports.por = false

/-- A cycle with no event runs the decoded command, then closes the cycle.
Rests on: 45_cycle_step.md section 1, R220, 41_counter.md section 2, R136, notes/assumptions/7.md. -/
def Obligations.StepRunsTheDecodedCommand : Prop :=
  ∀ (s t : State) (i : Instr), Legal s → s.ports.por = false → eventWord s = 0#5 →
    decode (.cmd s.ports.cmd) = .ok i → exec i s = .next t → step s = .next (closeCycle s t)

/-- A cycle with one event and NOP on the port runs that event, then closes the cycle.
Rests on: 45_cycle_step.md section 1, R220, 30_encoding.md section 3, R76, notes/assumptions/7.md. -/
def Obligations.StepRunsTheDecodedEvent : Prop :=
  ∀ (s t : State) (e : Instr), Legal s → s.ports.por = false → s.ports.cmd = 0#4 →
    decode (.evt (eventWord s)) = .ok e → exec e s = .next t → step s = .next (closeCycle s t)

/-- A step is the tick application, the command, the wrap, reset, pause and resume in turn, then the cycle's close.
Rests on: 45_cycle_step.md section 1, R223, notes/assumptions/7.md. -/
def Obligations.StepChainsTheOperationsInOrder : Prop :=
  ∀ s : State, Legal s → s.ports.por = false →
    ∃ t1 t2 t3 t4 t5 t6 : State,
      exec .tickApply s = .next t1 ∧ exec (decodeCmd s.ports.cmd) t1 = .next t2 ∧ exec .tickWrap t2 = .next t3 ∧
      exec .extReset t3 = .next t4 ∧ exec .extPause t4 = .next t5 ∧ exec .extResume t5 = .next t6 ∧
      step s = .next (closeCycle s t6)

/-- inc_s and inc_m: carries at 59 and the 24-hour rollover.
Rests on: R121, R122. -/
def Obligations.IncrementsCarryAsStated : Prop :=
  ∀ (t : TimeValue) (h m s : Nat), t.legal = true → t.triple = (h, m, s) →
    t.incM.triple =
      (if m < 59 then (h, m + 1, s) else if h < 23 then (h + 1, 0, s) else (0, 0, 0)) ∧
    t.incS.triple =
      (if s < 59 then (h, m, s + 1)
       else if m < 59 then (h, m + 1, 0) else if h < 23 then (h + 1, 0, 0) else (0, 0, 0))

/-- dec_s and dec_m: borrows and the floor at 00:00:00.
Rests on: R123, R124. -/
def Obligations.DecrementsBorrowAsStated : Prop :=
  ∀ (t : TimeValue) (h m s : Nat), t.legal = true → t.triple = (h, m, s) →
    t.decM.triple =
      (if 0 < m then (h, m - 1, s) else if 0 < h then (h - 1, 59, s) else (h, m, s)) ∧
    t.decS.triple =
      (if 0 < s then (h, m, s - 1)
       else if m = 0 ∧ h = 0 then (0, 0, 0)
       else if 0 < m then (h, m - 1, 59) else (h - 1, 59, 59))

/-- inc_h and dec_h clamp at 23 and 0 and touch nothing else.
Rests on: R125, R126. -/
def Obligations.ManualHoursClamp : Prop :=
  ∀ (t : TimeValue) (h m s : Nat), t.legal = true → t.triple = (h, m, s) →
    t.incH.triple = (if h < 23 then (h + 1, m, s) else (h, m, s)) ∧
    t.decH.triple = (if 0 < h then (h - 1, m, s) else (h, m, s))

/-- On valid triples the six functions stay valid and are arithmetic on the number of seconds.
Rests on: 41_counter.md section 4, R138. -/
def Obligations.CounterArithmeticCountsSeconds : Prop :=
  ∀ t : TimeValue, t.legal = true →
    (t.incS.legal = true ∧ t.incS.seconds = (t.seconds + 1) % 86400) ∧
    (t.decS.legal = true ∧ t.decS.seconds = max (t.seconds - 1) 0) ∧
    (t.incM.legal = true ∧
      t.incM.seconds = if t.hr.toNat < 23 ∨ t.min.toNat < 59 then t.seconds + 60 else 0) ∧
    (t.decM.legal = true ∧ t.decM.seconds = if 60 ≤ t.seconds then t.seconds - 60 else t.seconds) ∧
    (t.incH.legal = true ∧ t.incH.seconds = if t.hr.toNat < 23 then t.seconds + 3600 else t.seconds) ∧
    (t.decH.legal = true ∧ t.decH.seconds = if 0 < t.hr.toNat then t.seconds - 3600 else t.seconds)

/-- dec_s undoes inc_s except at 23:59:59, inc_s undoes dec_s except at 00:00:00.
Rests on: 41_counter.md section 4, R139 (a), (c). -/
def Obligations.IncrementAndDecrementAreInverse : Prop :=
  (∀ t : TimeValue, t.legal = true → t ≠ ⟨23#5, 59#6, 59#6⟩ → t.incS.decS = t) ∧
    TimeValue.decS (TimeValue.incS ⟨23#5, 59#6, 59#6⟩) = ⟨0#5, 0#6, 0#6⟩ ∧
  (∀ t : TimeValue, t.legal = true → t ≠ ⟨0#5, 0#6, 0#6⟩ → t.decS.incS = t) ∧
    TimeValue.incS (TimeValue.decS ⟨0#5, 0#6, 0#6⟩) = ⟨0#5, 0#6, 1#6⟩

/-- From 00:00:00 in CountUp, k consumed ticks leave k seconds modulo a day.
Rests on: 41_counter.md section 4, R139 (d). -/
def Obligations.TicksFromZeroCountSeconds : Prop :=
  ∀ (k : Nat) (s : Nat → State), (s 0).time = TimeValue.zero → (∀ n, (s n).dir = false) →
    (∀ n, tickDone (s n) = true) →
    (∀ n, ∃ t, exec .tickApply (s n) = .next t ∧ (s (n + 1)).time = t.time) →
    (s k).time.seconds = k % 86400

/-- NOP: code 0000, changes nothing.
Rests on: R127. -/
def Obligations.NopChangesNothing : Prop :=
  decodeCmd 0b0000#4 = .nop ∧ ∀ s : State, s.time.legal = true → exec .nop s = .next s

/-- INC_S: code 0001, inc_s of the time value in the update window, else ignored.
Rests on: R128. -/
def Obligations.IncSecondsCommand : Prop :=
  decodeCmd 0b0001#4 = .incS ∧
    (∀ s : State, s.time.legal = true →
      exec .incS s = .next (if s.slot = 6#3 then { s with time := s.time.incS } else s)) ∧
    TimeValue.incS ⟨23#5, 59#6, 59#6⟩ = ⟨0#5, 0#6, 0#6⟩ ∧
    (∀ h m, TimeValue.incS ⟨h, m, 59#6⟩ = TimeValue.incM ⟨h, m, 0#6⟩) ∧
    TimeValue.incS ⟨0#5, 0#6, 59#6⟩ = ⟨0#5, 1#6, 0#6⟩

/-- DEC_S: code 0010, dec_s of the time value in the update window, else ignored.
Rests on: R129. -/
def Obligations.DecSecondsCommand : Prop :=
  decodeCmd 0b0010#4 = .decS ∧
    (∀ s : State, s.time.legal = true →
      exec .decS s = .next (if s.slot = 6#3 then { s with time := s.time.decS } else s)) ∧
    TimeValue.decS ⟨0#5, 0#6, 0#6⟩ = ⟨0#5, 0#6, 0#6⟩ ∧
    (∀ h, 0#5 < h → TimeValue.decS ⟨h, 0#6, 0#6⟩ = ⟨h - 1#5, 59#6, 59#6⟩) ∧
    TimeValue.decS ⟨0#5, 10#6, 0#6⟩ = ⟨0#5, 9#6, 59#6⟩

/-- INC_M: code 0011, inc_m of the time value in the update window, else ignored.
Rests on: R130. -/
def Obligations.IncMinutesCommand : Prop :=
  decodeCmd 0b0011#4 = .incM ∧
    (∀ s : State, s.time.legal = true →
      exec .incM s = .next (if s.slot = 6#3 then { s with time := s.time.incM } else s)) ∧
    (∀ s, TimeValue.incM ⟨23#5, 59#6, s⟩ = ⟨0#5, 0#6, 0#6⟩) ∧
    (∀ h s, h < 23#5 → TimeValue.incM ⟨h, 59#6, s⟩ = ⟨h + 1#5, 0#6, s⟩) ∧
    TimeValue.incM ⟨23#5, 59#6, 30#6⟩ = ⟨0#5, 0#6, 0#6⟩

/-- DEC_M: code 0100, dec_m of the time value in the update window, else ignored.
Rests on: R131. -/
def Obligations.DecMinutesCommand : Prop :=
  decodeCmd 0b0100#4 = .decM ∧
    (∀ s : State, s.time.legal = true →
      exec .decM s = .next (if s.slot = 6#3 then { s with time := s.time.decM } else s)) ∧
    (∀ s, TimeValue.decM ⟨0#5, 0#6, s⟩ = ⟨0#5, 0#6, s⟩) ∧
    (∀ h s, 0#5 < h → TimeValue.decM ⟨h, 0#6, s⟩ = ⟨h - 1#5, 59#6, s⟩) ∧
    TimeValue.decM ⟨1#5, 0#6, 30#6⟩ = ⟨0#5, 59#6, 30#6⟩

/-- INC_H: code 0101, inc_h of the time value in the update window, else ignored.
Rests on: R132. -/
def Obligations.IncHoursCommand : Prop :=
  decodeCmd 0b0101#4 = .incH ∧
    (∀ s : State, s.time.legal = true →
      exec .incH s = .next (if s.slot = 6#3 then { s with time := s.time.incH } else s)) ∧
    ∀ m s, TimeValue.incH ⟨23#5, m, s⟩ = ⟨23#5, m, s⟩

/-- DEC_H: code 0110, dec_h of the time value in the update window, else ignored.
Rests on: R133. -/
def Obligations.DecHoursCommand : Prop :=
  decodeCmd 0b0110#4 = .decH ∧
    (∀ s : State, s.time.legal = true →
      exec .decH s = .next (if s.slot = 6#3 then { s with time := s.time.decH } else s)) ∧
    (∀ m s, TimeValue.decH ⟨0#5, m, s⟩ = ⟨0#5, m, s⟩) ∧
    TimeValue.decH ⟨5#5, 0#6, 0#6⟩ = ⟨4#5, 0#6, 0#6⟩

/-- TGL: code 0111, flips dir in the update window, else ignored; the LEDs follow; two of them cancel.
Rests on: 41_counter.md section 2, R134, 30_encoding.md section 2, R74. -/
def Obligations.ToggleFlipsTheMode : Prop :=
  decodeCmd 0b0111#4 = .tgl ∧
    (∀ s : State, s.time.legal = true →
      exec .tgl s = .next (if s.slot = 6#3 then { s with dir := !s.dir } else s)) ∧
    (∀ s t : State, s.slot = 6#3 → s.ports.por = false → exec .tgl s = .next t →
      (outputs t).ledUp = s.dir ∧ (outputs t).ledDown = !s.dir) ∧
    ∀ s t : State, exec .tgl s = .next t → exec .tgl t = .next s

/-- A reserved code changes nothing; the contract monitor refuses a run that presents one in the window.
Rests on: 41_counter.md section 2, R135, 30_encoding.md section 3, R78, 43_host_controller.md section 4, R183 (a), notes/assumptions/4.md. -/
def Obligations.ReservedCodesChangeNothing : Prop :=
  (∀ (op : CmdWord) (s : State), s.time.legal = true → exec (.reserved op) s = .next s) ∧
    ∀ (k : Policy) (m : Monitor) (s : State), m.powered = true → s.ports.por = false → s.slot = 6#3 →
      s.ports.cmd.getLsbD 3 = true → watchedStep k m s = .refused (.hostContract .noReservedCode)

/-- Every command code has the effect of the cmd_apply table in the update window and none elsewhere.
Rests on: R136. -/
def Obligations.CommandsActOnlyInTheWindow : Prop :=
  ∀ (w : CmdWord) (s : State), s.time.legal = true →
    exec (decodeCmd w) s = .next
      (if s.slot = 6#3 then
        { s with
          time :=
            if w = 1#4 then s.time.incS else if w = 2#4 then s.time.decS else if w = 3#4 then s.time.incM
            else if w = 4#4 then s.time.decM else if w = 5#4 then s.time.incH
            else if w = 6#4 then s.time.decH else s.time
          dir := if w = 7#4 then !s.dir else s.dir }
      else s)

/-- EXT_RESET: on a reset edge the time value and tcnt become 0, nothing else changes, no tick is out.
Rests on: 44_control_interrupts.md section 2, R205. -/
def Obligations.ResetEdgeZeroesTimeAndTickCounter : Prop :=
  (∀ s : State, s.time.legal = true →
    exec .extReset s = .next
      (if s.syncRst.h = true ∧ s.syncRst.q2 = false then
        { s with time := ⟨0#5, 0#6, 0#6⟩, tcnt := 0 } else s)) ∧
  ∀ s : State, s.syncRst.h = true → s.syncRst.q2 = false → (outputs s).tickOut = false

/-- EXT_PAUSE: a pause edge clears run and asserts pause_evt, nothing else changes.
Rests on: 44_control_interrupts.md section 2, R206, R209. -/
def Obligations.PauseEdgeStops : Prop :=
  (∀ s : State, s.time.legal = true →
    exec .extPause s = .next
      { s with run := if s.syncPse.h = false ∧ s.syncPse.q2 = true then false else s.run }) ∧
  ∀ s : State, s.ports.por = false →
    ((outputs s).pauseEvt = true ↔ s.syncPse.h = false ∧ s.syncPse.q2 = true)

/-- EXT_RESUME: a resume edge sets run, nothing else changes.
Rests on: 44_control_interrupts.md section 2, R207. -/
def Obligations.ResumeEdgeRuns : Prop :=
  ∀ s : State, s.time.legal = true →
    exec .extResume s = .next
      { s with run := if s.syncRsm.h = true ∧ s.syncRsm.q2 = false then true else s.run } ∧
    (s.syncRsm.h = true → s.syncRsm.q2 = false →
      ∃ t u : State, exec .extPause s = .next t ∧ exec .extResume t = .next u ∧ u.run = true ∧ u.tcnt = s.tcnt)

/-- TICK_WRAP: at the wrap tcnt restarts from 0 and pend is raised, unless a reset edge suppresses the tick.
Rests on: 40_tick_generator.md section 2, R101, R102, 40_tick_generator.md section 3, R103. -/
def Obligations.WrapRestartsTheCounterAndRaisesPend : Prop :=
  (∀ s : State, s.time.legal = true →
    exec .tickWrap s = .next
      (if s.run = true ∧ s.tcnt = s.cfg.fClk - 1 then
        { s with tcnt := 0, pend := s.pend || !(s.syncRst.h && !s.syncRst.q2) } else s)) ∧
  ∀ s : State, s.ports.por = false →
    ((outputs s).tickOut = true ↔
      (s.run = true ∧ s.tcnt = s.cfg.fClk - 1) ∧ ¬(s.syncRst.h = true ∧ s.syncRst.q2 = false))

/-- TICK_APPLY: in the consume cycle a pending tick moves the time value up or down by the Mode and is cleared.
Rests on: 41_counter.md section 3, R137, 40_tick_generator.md section 3, R104. -/
def Obligations.TickAppliedByMode : Prop :=
  (∀ s : State, s.time.legal = true →
    exec .tickApply s = .next
      (if s.slot = 6#3 ∧ s.dcnt = 0 ∧ s.pend = true then
        { s with time := if s.dir = false then s.time.incS else s.time.decS, pend := false } else s)) ∧
  (∀ s : State, s.ports.por = false →
    ((outputs s).tickDone = true ↔ s.slot = 6#3 ∧ s.dcnt = 0 ∧ s.pend = true)) ∧
  TimeValue.decS ⟨0#5, 0#6, 0#6⟩ = ⟨0#5, 0#6, 0#6⟩ ∧ TimeValue.incS ⟨23#5, 59#6, 59#6⟩ = ⟨0#5, 0#6, 0#6⟩ ∧
  TimeValue.decS ⟨0#5, 0#6, 1#6⟩ = ⟨0#5, 0#6, 0#6⟩

/-- From every legal state without POR the step gives the next state of the equations of R220.
Rests on: R220. -/
def Obligations.StepObeysTheCycleEquations : Prop :=
  ∀ s : State, Legal s → s.ports.por = false →
    ∃ t : State, step s = .next t ∧
      let rst := s.syncRst.h && !s.syncRst.q2
      let pse := !s.syncPse.h && s.syncPse.q2
      let rsm := s.syncRsm.h && !s.syncRsm.q2
      let wrp := s.run && decide (s.tcnt = s.cfg.tickDiv - 1)
      let consumes := decide (s.slot = 6#3) && decide (s.dcnt = 0)
      let last := if s.slot.toNat < 6 then s.cfg.dwell - 1 else s.cfg.u - 1
      t.time = (if rst then TimeValue.zero else (afterCommand s).1) ∧ t.dir = (afterCommand s).2 ∧
      t.tcnt = (if rst then 0 else if s.run then (if wrp then 0 else s.tcnt + 1) else s.tcnt) ∧
      t.run = (if rsm then true else if pse then false else s.run) ∧
      t.pend = ((wrp && !rst) || (s.pend && !consumes)) ∧
      t.syncRst = ⟨s.ports.pinRst, s.syncRst.q1, s.syncRst.q2⟩ ∧
      t.syncPse = ⟨s.ports.pinPse, s.syncPse.q1, s.syncPse.q2⟩ ∧
      t.syncRsm = ⟨s.ports.pinRsm, s.syncRsm.q1, s.syncRsm.q2⟩ ∧
      (t.slot.toNat, t.dcnt) =
        (if s.dcnt = last then ((s.slot.toNat + 1) % 7, 0) else (s.slot.toNat, s.dcnt + 1)) ∧
      t.busR =
        (match Position.ofSlot t.slot with
         | some p => if s.dcnt = last then digit p t.time else s.busR
         | none => s.busR) ∧
      t.cfg = s.cfg

/-- Every step keeps Inv: the invariants of R224 that speak of one state, and of the last one (`bus_r = digit(slot, T_c)`) the part about the first
cycle of a render slot. For the slot's later cycles see DisplayHoldsTheSlotDigit (O51).
Rests on: 45_cycle_step.md section 2, R224, 10_state.md section 2, R23. -/
def Obligations.EveryStepKeepsTheInvariants : Prop :=
  ∀ s t : State, Inv s → step s = .next t → Inv t

/-- The reset state has the invariants and the register values the spec gives for POR. That `Inv` holds of its
configuration rests on the model's choice of one, notes/assumptions/1.md.
Rests on: 70_reset_and_hazards.md section 1, R260, 10_state.md section 1, R20, notes/assumptions/1.md. -/
def Obligations.ResetHasTheInvariants : Prop :=
  Inv State.reset ∧ State.reset.time = ⟨0#5, 0#6, 0#6⟩ ∧ State.reset.dir = false ∧ State.reset.run = true ∧
    State.reset.pend = false ∧ State.reset.tcnt = 0 ∧ State.reset.slot = 0#3 ∧ State.reset.dcnt = 0 ∧
    State.reset.busR = 0#4

/-- With por = 1 the next state is the POR state whatever the state is, with the flops at the pin levels.
Rests on: R221, R260. -/
def Obligations.PorStepGivesThePorState : Prop :=
  ∀ s : State, s.cfg.ok = true → s.ports.por = true →
    ∃ t : State, step s = .next t ∧ t.time = ⟨0#5, 0#6, 0#6⟩ ∧ t.dir = false ∧ t.run = true ∧ t.pend = false ∧
      t.tcnt = 0 ∧ t.slot = 0#3 ∧ t.dcnt = 0 ∧ t.busR = 0#4 ∧
      t.syncRst = ⟨s.ports.pinRst, s.ports.pinRst, s.ports.pinRst⟩ ∧
      t.syncPse = ⟨s.ports.pinPse, s.ports.pinPse, s.ports.pinPse⟩ ∧
      t.syncRsm = ⟨s.ports.pinRsm, s.ports.pinRsm, s.ports.pinRsm⟩ ∧ t.cfg = s.cfg

/-- During POR every output has the constant of R261.
Rests on: R261. -/
def Obligations.OutputsDuringPorAreConstant : Prop :=
  ∀ s : State, s.ports.por = true →
    (outputs s).en = 0#6 ∧ (outputs s).bus = 0#4 ∧ (outputs s).updWin = false ∧ (outputs s).tickOut = false ∧
    (outputs s).tickDone = false ∧ (outputs s).pauseEvt = false ∧ (outputs s).tSec = 0#6 ∧
    (outputs s).tMin = 0#6 ∧ (outputs s).tHr = 0#5 ∧ (outputs s).dir = false ∧ (outputs s).ledDown = false ∧
    (outputs s).run = true ∧ (outputs s).ledUp = true

/-- Outside POR every output is the function of the registers that R222 gives, and depends on no input.
Rests on: 45_cycle_step.md section 1, R222, 30_encoding.md section 2, R72 to R74. -/
def Obligations.OutputsShowTheState : Prop :=
  (∀ s : State, s.ports.por = false →
    (∀ k, k < 6 → (outputs s).en.getLsbD k = decide (s.slot.toNat = k)) ∧ (outputs s).bus = s.busR ∧
    (outputs s).updWin = decide (s.slot = 6#3) ∧
    (outputs s).tickOut = (s.run && decide (s.tcnt = s.cfg.fClk - 1) && !(s.syncRst.h && !s.syncRst.q2)) ∧
    (outputs s).tickDone = (decide (s.slot = 6#3) && decide (s.dcnt = 0) && s.pend) ∧
    (outputs s).pauseEvt = (!s.syncPse.h && s.syncPse.q2) ∧ (outputs s).tSec = s.time.sec ∧
    (outputs s).tMin = s.time.min ∧ (outputs s).tHr = s.time.hr ∧ (outputs s).dir = s.dir ∧
    (outputs s).run = s.run ∧ (outputs s).ledUp = !s.dir ∧ (outputs s).ledDown = s.dir) ∧
  ∀ (s : State) (p q : Ports), p.por = false → q.por = false →
    outputs { s with ports := p } = outputs { s with ports := q }

/-- The display word has one of three shapes: one enable and the latched digit, all off in the window, all 0 in POR.
Rests on: 42_multiplexer.md section 2, R154, R155, 30_encoding.md section 3, R81, 70_reset_and_hazards.md section 1, R261. -/
def Obligations.AtMostOneDigitEnabled : Prop :=
  (∀ s : State, s.slot ≤ 6#3 → s.ports.por = false →
    (∀ j k, j < 6 → k < 6 → (outputs s).en.getLsbD j = true → (outputs s).en.getLsbD k = true → j = k) ∧
    (∀ k, k < 6 → (s.slot.toNat = k ↔ (outputs s).en.getLsbD k = true)) ∧
    (s.slot = 6#3 → (outputs s).display = 0#6 ++ s.busR) ∧
    (s.slot ≠ 6#3 → (outputs s).display = (1#6 <<< s.slot.toNat) ++ s.busR)) ∧
  ∀ s : State, s.ports.por = true → (outputs s).display = 0#10

/-- Each position's digit is the ones or tens place of its field, within the decimal ranges.
Rests on: R151, R152. -/
def Obligations.DigitsAreDecimal : Prop :=
  ∀ t : TimeValue, t.legal = true →
    (digit .secOnes t).toNat = t.sec.toNat % 10 ∧ (digit .secTens t).toNat = t.sec.toNat / 10 ∧
    (digit .minOnes t).toNat = t.min.toNat % 10 ∧ (digit .minTens t).toNat = t.min.toNat / 10 ∧
    (digit .hrOnes t).toNat = t.hr.toNat % 10 ∧ (digit .hrTens t).toNat = t.hr.toNat / 10 ∧
    (∀ p, digit p t ≤ 9#4) ∧ digit .secTens t ≤ 5#4 ∧ digit .minTens t ≤ 5#4 ∧ digit .hrTens t ≤ 2#4

/-- tcnt after a step: 0 on a reset edge, counts and wraps while Running, holds while Stopped.
Rests on: R101. -/
def Obligations.TickCounterCounts : Prop :=
  ∀ s : State, Legal s → s.ports.por = false →
    ∃ t : State, step s = .next t ∧
      t.tcnt =
        (if s.syncRst.h = true ∧ s.syncRst.q2 = false then 0
         else if s.run = true then (if s.tcnt = s.cfg.tickDiv - 1 then 0 else s.tcnt + 1)
         else s.tcnt)

/-- pend after a step is tick_out or what was pending and not consumed; a tick while pending is coalesced.
Rests on: R103, R104. -/
def Obligations.PendingTickRule : Prop :=
  ∀ s : State, Legal s → s.ports.por = false →
    ∃ t : State, step s = .next t ∧
      (t.pend = true ↔
        (outputs s).tickOut = true ∨ (s.pend = true ∧ ¬(s.slot = 6#3 ∧ s.dcnt = 0)))

/-- Each pin's flops shift the sampled level by one every cycle, and load the level in a POR cycle.
Rests on: R201. -/
def Obligations.SynchronisersShift : Prop :=
  ∀ s : State, Legal s →
    ∃ t : State, step s = .next t ∧
      (s.ports.por = false →
        t.syncRst = ⟨s.ports.pinRst, s.syncRst.q1, s.syncRst.q2⟩ ∧
        t.syncPse = ⟨s.ports.pinPse, s.syncPse.q1, s.syncPse.q2⟩ ∧
        t.syncRsm = ⟨s.ports.pinRsm, s.syncRsm.q1, s.syncRsm.q2⟩) ∧
      (s.ports.por = true →
        t.syncRst = ⟨s.ports.pinRst, s.ports.pinRst, s.ports.pinRst⟩ ∧
        t.syncPse = ⟨s.ports.pinPse, s.ports.pinPse, s.ports.pinPse⟩ ∧
        t.syncRsm = ⟨s.ports.pinRsm, s.ports.pinRsm, s.ports.pinRsm⟩ ∧
        (outputs { t with ports := { t.ports with por := false } }).pauseEvt = false ∧ rstEdge t = false ∧
        pseEdge t = false ∧ rsmEdge t = false)

/-- slot and dcnt after a step: the next cycle of the slot, or the first of the next slot, whatever else happens.
Rests on: R153. -/
def Obligations.SequencerAdvances : Prop :=
  ∀ s : State, Legal s → s.ports.por = false →
    ∃ t : State, step s = .next t ∧
      (t.slot.toNat, t.dcnt) =
        (if s.dcnt = (if s.slot.toNat < 6 then s.cfg.dwell - 1 else s.cfg.u - 1)
         then ((s.slot.toNat + 1) % 7, 0) else (s.slot.toNat, s.dcnt + 1))

/-- bus_r is loaded with the new slot's digit at a render slot's start, and else kept; each slot drives its own position.
Rests on: 42_multiplexer.md section 1, R150, 42_multiplexer.md section 2, R155. -/
def Obligations.BusLoadedAtSlotStart : Prop :=
  (Position.ofSlot 0#3 = some .secOnes ∧ Position.ofSlot 1#3 = some .secTens ∧
    Position.ofSlot 2#3 = some .minOnes ∧ Position.ofSlot 3#3 = some .minTens ∧
    Position.ofSlot 4#3 = some .hrOnes ∧ Position.ofSlot 5#3 = some .hrTens ∧ Position.ofSlot 6#3 = none) ∧
  ∀ s : State, Legal s → s.ports.por = false →
    ∃ t : State, step s = .next t ∧
      (∀ p, s.dcnt = (if s.slot.toNat < 6 then s.cfg.dwell - 1 else s.cfg.u - 1) →
        Position.ofSlot t.slot = some p → t.busR = digit p t.time) ∧
      (s.dcnt ≠ (if s.slot.toNat < 6 then s.cfg.dwell - 1 else s.cfg.u - 1) ∨ t.slot = 6#3 → t.busR = s.busR)

/-- Collisions of one cycle: reset over tick and command, TGL still flips, resume over pause, a new tick over consumption.
Rests on: 45_cycle_step.md section 1, R223 (1) to (5), 60_exceptions.md section 3, R244. -/
def Obligations.SameCycleEffectsCombineInOrder : Prop :=
  ∀ s : State, Legal s → s.ports.por = false →
    ∃ t : State, step s = .next t ∧
      (rstEdge s = true → t.time = ⟨0#5, 0#6, 0#6⟩ ∧ t.tcnt = 0 ∧ (outputs s).tickOut = false) ∧
      (rstEdge s = false → t.time = (afterCommand s).1) ∧
      (s.slot = 6#3 → s.ports.cmd = 7#4 → t.dir = !s.dir) ∧
      (¬(s.slot = 6#3 ∧ s.ports.cmd = 7#4) → t.dir = s.dir) ∧
      (rsmEdge s = true → t.run = true) ∧
      (rsmEdge s = false → pseEdge s = true → t.run = false) ∧
      ((outputs s).tickOut = true → t.pend = true) ∧
      ((outputs s).tickOut = false → consume s = true → t.pend = false)

/-- Outside the update window and without a reset edge no step changes the time value.
Rests on: 42_multiplexer.md section 3, R159, 10_state.md section 2, R22. -/
def Obligations.TimeChangesOnlyInWindowOrAtReset : Prop :=
  ∀ s t : State, s.ports.por = false → step s = .next t → t.time ≠ s.time →
    s.slot = 6#3 ∨ (s.syncRst.h = true ∧ s.syncRst.q2 = false)

/-- A step without POR changes dir exactly if TGL is presented in the update window.
Rests on: 10_state.md section 3, R25. -/
def Obligations.ModeChangesOnlyByToggle : Prop :=
  ∀ s t : State, s.ports.por = false → step s = .next t →
    (t.dir ≠ s.dir ↔ s.slot = 6#3 ∧ s.ports.cmd = 7#4)

/-- A step without POR changes run only by a pause edge (to Stopped) or a resume edge (to Running).
Rests on: 44_control_interrupts.md section 2, R208, 10_state.md section 3, R26. -/
def Obligations.RunChangesOnlyByPauseAndResume : Prop :=
  ∀ s t : State, s.ports.por = false → step s = .next t → t.run ≠ s.run →
    (pseEdge s = true ∧ rsmEdge s = false ∧ t.run = false) ∨ (rsmEdge s = true ∧ t.run = true)

/-- The command presented changes nothing of run, pend, tcnt, the sequencer or the synchronisers.
Rests on: 43_host_controller.md section 4, R184, 45_cycle_step.md section 1, R220, R223 (4), (6). -/
def Obligations.HostCannotReachRunPendOrSequencer : Prop :=
  ∀ (s : State) (c : CmdWord), Legal s → s.ports.por = false →
    ∃ t u : State, step s = .next t ∧ step { s with ports := { s.ports with cmd := c } } = .next u ∧
      t.run = u.run ∧ t.pend = u.pend ∧ t.tcnt = u.tcnt ∧ t.slot = u.slot ∧ t.dcnt = u.dcnt ∧
      t.syncRst = u.syncRst ∧ t.syncPse = u.syncPse ∧ t.syncRsm = u.syncRsm

/-- In a legal state tcnt and dcnt fit the widths R20 gives them.
Rests on: 10_state.md section 1, R20. -/
def Obligations.RegistersFitTheirWidths : Prop :=
  ∀ s : State, Legal s → s.tcnt < 2 ^ s.cfg.tcntWidth ∧ s.dcnt < 2 ^ s.cfg.dcntWidth

/-- Every step, a POR step too, refuses exactly the configurations that break the parameter checks. R265 names no cycle:
that every cycle refuses is the model's inference, notes/assumptions/6.md.
Rests on: 70_reset_and_hazards.md section 2, R265, notes/assumptions/6.md. -/
def Obligations.BadConfigurationsAreRefused : Prop :=
  (∀ c : Config, c.ok = true ↔
    1 ≤ c.fClk ∧ c.tickDiv = c.fClk ∧ 1 ≤ c.dwell ∧ 1 ≤ c.u ∧ 6 * c.dwell + c.u < c.tickDiv) ∧
  ∀ s : State, step s = .refused .badConfiguration ↔ s.cfg.ok = false

/-- Every operation refuses an invalid time value, and the step refuses registers outside their legal values.
Rests on: 10_state.md section 2, R24, 45_cycle_step.md section 1, R220, notes/assumptions/5.md. -/
def Obligations.UnreachableRegisterValuesAreRefused : Prop :=
  (∀ (i : Instr) (s : State), s.time.legal = false → exec i s = .refused .timeOutOfRange) ∧
  (∀ s : State, s.cfg.ok = true → s.ports.por = false → registersLegal s = true → s.time.legal = false →
    step s = .refused .timeOutOfRange) ∧
  ∀ s : State, s.cfg.ok = true → s.ports.por = false → registersLegal s = false →
    step s = .refused .registerOutOfRange

/-- A pin's active edge is an event two cycles after the level changes, only then, and acts in the third cycle's state.
Rests on: 70_reset_and_hazards.md section 3, R270, 44_control_interrupts.md section 1, R202. -/
def Obligations.PinEdgeActsThreeCyclesLater : Prop :=
  ∀ s : State, Legal s → NoPor s →
    (s.syncRst = ⟨true, true, true⟩ → s.ports.pinRst = false →
      ∃ t1 t2 t3 : State, After 1 s t1 ∧ After 2 s t2 ∧ After 3 s t3 ∧
        rstEdge s = false ∧ rstEdge t1 = false ∧ rstEdge t2 = true ∧ rstEdge t3 = false ∧
        t3.time = TimeValue.zero ∧ t3.tcnt = 0) ∧
    (s.syncPse = ⟨false, false, false⟩ → s.ports.pinPse = true →
      ∃ t1 t2 t3 : State, After 1 s t1 ∧ After 2 s t2 ∧ After 3 s t3 ∧
        pseEdge s = false ∧ pseEdge t1 = false ∧ pseEdge t2 = true ∧ pseEdge t3 = false ∧
        (rsmEdge t2 = false → t3.run = false)) ∧
    (s.syncRsm = ⟨true, true, true⟩ → s.ports.pinRsm = false →
      ∃ t1 t2 t3 : State, After 1 s t1 ∧ After 2 s t2 ∧ After 3 s t3 ∧
        rsmEdge s = false ∧ rsmEdge t1 = false ∧ rsmEdge t2 = true ∧ rsmEdge t3 = false ∧ t3.run = true)

/-- In a render slot the slot, and the digit latched at its start, stand for all its cycles.
Rests on: 45_cycle_step.md section 2, R224, 42_multiplexer.md section 2, R155. -/
def Obligations.DisplayHoldsTheSlotDigit : Prop :=
  ∀ (s : State) (p : Position) (j : Nat), Inv s → NoPor s → s.dcnt = 0 → Position.ofSlot s.slot = some p →
    j < s.cfg.dwell →
    ∃ t : State, After j s t ∧ t.slot = s.slot ∧ t.dcnt = j ∧ t.busR = digit p s.time

/-- In cycle n after POR slot and dcnt are the functions of n mod FRAME that the frame law gives, under any inputs.
Rests on: 42_multiplexer.md section 3, R157. -/
def Obligations.FrameLawFromPor : Prop :=
  ∀ (s : State) (n : Nat), s.cfg.ok = true → s.ports.por = true → (∀ p ∈ s.script, p.por = false) →
    ∃ t : State, After (n + 1) s t ∧
      let p := n % s.cfg.frame
      t.slot.toNat = (if p < 6 * s.cfg.dwell then p / s.cfg.dwell else 6) ∧
      t.dcnt = (if p < 6 * s.cfg.dwell then p % s.cfg.dwell else p - 6 * s.cfg.dwell) ∧
      (consume t = true ↔ p = 6 * s.cfg.dwell)

/-- While Running without a reset edge, tick_out is asserted in exactly one of every TICK_DIV consecutive cycles.
Rests on: 40_tick_generator.md section 4, R106. -/
def Obligations.OneTickPerPeriod : Prop :=
  ∀ s : State, Legal s → NoPor s →
    holdsFor (fun t => t.run && !rstEdge t) s.cfg.tickDiv s = true →
    ∃ j, j < s.cfg.tickDiv ∧ (∃ t, After j s t ∧ (outputs t).tickOut = true) ∧
      ∀ i, i < s.cfg.tickDiv → (∃ t, After i s t ∧ (outputs t).tickOut = true) → i = j

/-- Between two ticks there is always a consume cycle, so no tick is lost.
Rests on: 70_reset_and_hazards.md section 3, R279, 45_cycle_step.md section 2, R226. -/
def Obligations.TicksNeverCoalesce : Prop :=
  ∀ (s a b : State) (i j : Nat), Legal s → NoPor s → i < j → After i s a → After j s b →
    (outputs a).tickOut = true → (outputs b).tickOut = true →
    ∃ (k : Nat) (c : State), i < k ∧ k < j ∧ After k s c ∧ consume c = true

/-- One frame without edge events: the time stands through the render slots, then the tick and the window's commands apply in order.
Rests on: 45_cycle_step.md section 2, R225. -/
def Obligations.FrameAppliesTickThenCommands : Prop :=
  ∀ s : State, Inv s → NoPor s → s.slot = 0#3 → s.dcnt = 0 →
    holdsFor (fun t => !rstEdge t && !pseEdge t && !rsmEdge t) s.cfg.frame s = true →
    (∀ j, j < 6 * s.cfg.dwell → ∃ t p, After j s t ∧ t.time = s.time ∧ t.dir = s.dir ∧
      Position.ofSlot t.slot = some p ∧ t.busR = digit p s.time) ∧
    ∃ c t : State, After (6 * s.cfg.dwell) s c ∧ consume c = true ∧ After s.cfg.frame s t ∧
      t.slot = 0#3 ∧ t.dcnt = 0 ∧
      (t.time, t.dir) =
        (List.range s.cfg.u).foldl (fun td k => cmdApply (cmdAfter s (6 * s.cfg.dwell + k)) td.1 td.2)
          (if c.pend = true then (if s.dir = false then s.time.incS else s.time.decS) else s.time, s.dir)

/-- A held button fires in one poll only, and a release arms it again.
Rests on: R173. -/
def Obligations.ButtonActsOncePerPress : Prop :=
  (∀ (l : HostLines) (a : ButtonBits) (b : Button),
    (b ∈ pollActions l a ↔ l.pressed b = true ∧ a.get b = true) ∧
    (pollArmed l a).get b =
      (if l.pressed b = true ∧ a.get b = true then false else if l.pressed b = false then true else a.get b)) ∧
  ∀ (l : HostLines) (a : ButtonBits) (b : Button) (n : Nat), l.pressed b = true →
    b ∉ pollActions l ((pollArmed l)^[n + 1] a)

/-- The buzzer is driven to buzzerOn and not latch at the end of an iteration, where a held stop input silences it, and
else holds. That the stop input is sensed in the last cycle of the window is the model's choice, notes/assumptions/14.md.
Rests on: 43_host_controller.md section 1, R170, 43_host_controller.md section 3, R178, R181, notes/assumptions/14.md. -/
def Obligations.BuzzerFollowsLatch : Prop :=
  (∀ (k : BuzzConfig) (c : Controller) (l : HostLines) (dir : Bool),
    (c.endIteration k l dir).buzzer = ((c.endIteration k l dir).buzzerOn && !(c.endIteration k l dir).latch) ∧
    (l.stopBuzzer = false → (c.endIteration k l dir).latch = true ∧ (c.endIteration k l dir).buzzer = false) ∧
    (l.stopBuzzer = true → (c.endIteration k l dir).latch = c.latch)) ∧
  ∀ (k : BuzzConfig) (u : Nat) (c : Controller) (l : HostLines) (o : Outputs),
    (o.updWin = false ∨ c.windowPos + 1 < u → (c.cycle k u l o).1.buzzer = c.buzzer) ∧
    (o.updWin = true → u ≤ c.windowPos + 1 →
      (c.cycle k u l o).1.buzzer = ((c.cycle k u l o).1.buzzerOn && !(c.cycle k u l o).1.latch) ∧
      (l.stopBuzzer = false → (c.cycle k u l o).1.latch = true ∧ (c.cycle k u l o).1.buzzer = false))

/-- buzzerOn at a qualifying decrement: cleared by the latch, set on reaching 00:00:00, cleared on a nonzero result, else kept.
Rests on: 43_host_controller.md section 3, R180. -/
def Obligations.BuzzerOnUpdate : Prop :=
  ∀ (latch on : Bool) (b a : TimeValue),
    (latch = true → buzzerOnAfter latch on b a = false) ∧
    (latch = false → b ≠ TimeValue.zero → a = TimeValue.zero → buzzerOnAfter latch on b a = true) ∧
    (latch = false → a ≠ TimeValue.zero → buzzerOnAfter latch on b a = false) ∧
    (latch = false → b = TimeValue.zero → a = TimeValue.zero → buzzerOnAfter latch on b a = on)

/-- n times inc_h, inc_m or inc_s from 0 of its field sets the field to n and leaves the others.
Rests on: 30_encoding.md section 4, R83. -/
def Obligations.IncrementFunctionsSetEachField : Prop :=
  (∀ (t : TimeValue) (n : Nat), t.hr = 0#5 → n ≤ 23 → TimeValue.incH^[n] t = { t with hr := BitVec.ofNat 5 n }) ∧
  (∀ (t : TimeValue) (n : Nat), t.min = 0#6 → n ≤ 59 → TimeValue.incM^[n] t = { t with min := BitVec.ofNat 6 n }) ∧
  ∀ (t : TimeValue) (n : Nat), t.sec = 0#6 → n ≤ 59 → TimeValue.incS^[n] t = { t with sec := BitVec.ofNat 6 n }

/-- Run from a stopped block, the expansions of SETH, SETM, SETS, DOWN and UP leave the field or Mode they name.
Rests on: 30_encoding.md section 4, R82, R83, notes/assumptions/15.md. -/
def Obligations.ScriptLinesReachTheirValue : Prop :=
  ∀ (s : State) (c : Nat), Legal s → 2 ≤ s.cfg.u → c % s.cfg.frame = framePhase s →
    s.run = false → s.pend = false → s.syncRst = ⟨true, true, true⟩ → s.syncPse = ⟨false, false, false⟩ →
    s.syncRsm = ⟨true, true, true⟩ →
    (∀ n, n ≤ 23 → s.time.hr = 0#5 → ∃ vs t, expand s.cfg (Cursor.start c) (setH n) = some vs ∧
      After vs.length (s.withScript vs) t ∧ t.time = { s.time with hr := BitVec.ofNat 5 n } ∧ t.dir = s.dir) ∧
    (∀ n, n ≤ 59 → s.time.min = 0#6 → ∃ vs t, expand s.cfg (Cursor.start c) (setM n) = some vs ∧
      After vs.length (s.withScript vs) t ∧ t.time = { s.time with min := BitVec.ofNat 6 n } ∧ t.dir = s.dir) ∧
    (∀ n, n ≤ 59 → s.time.sec = 0#6 → ∃ vs t, expand s.cfg (Cursor.start c) (setS n) = some vs ∧
      After vs.length (s.withScript vs) t ∧ t.time = { s.time with sec := BitVec.ofNat 6 n } ∧ t.dir = s.dir) ∧
    (∃ vs t, expand s.cfg (Cursor.start c) (down s.dir) = some vs ∧ After vs.length (s.withScript vs) t ∧
      t.time = s.time ∧ t.dir = true) ∧
    ∃ vs t, expand s.cfg (Cursor.start c) (up s.dir) = some vs ∧ After vs.length (s.withScript vs) t ∧
      t.time = s.time ∧ t.dir = false
end

