-- ==== Sys2Proof/Laws/Controller.lean ====
section
/-! SUPPORT. What each part of the source's host writes: the buzzer line and the window count are left alone by all of
them but the end of an iteration. -/

namespace Sys2Proof.Machine

@[simp] theorem Controller.settle_latch (c : Controller) (f : Decrement → TimeValue) : (c.settle f).latch = c.latch := by
  unfold Controller.settle; split <;> rfl
@[simp] theorem Controller.settle_buzzer (c : Controller) (f : Decrement → TimeValue) :
    (c.settle f).buzzer = c.buzzer := by
  unfold Controller.settle; split <;> rfl
@[simp] theorem Controller.settle_windowPos (c : Controller) (f : Decrement → TimeValue) :
    (c.settle f).windowPos = c.windowPos := by
  unfold Controller.settle; split <;> rfl
@[simp] theorem Controller.settle_decrement (c : Controller) (f : Decrement → TimeValue) :
    (c.settle f).decrement = none := by
  unfold Controller.settle; split <;> simp_all

@[simp] theorem Controller.seePause_buzzer (c : Controller) (o : Outputs) : (c.seePause o).buzzer = c.buzzer := by
  unfold Controller.seePause; split <;> rfl
@[simp] theorem Controller.seePause_windowPos (c : Controller) (o : Outputs) :
    (c.seePause o).windowPos = c.windowPos := by
  unfold Controller.seePause; split <;> rfl

@[simp] theorem Controller.seeDecrement_buzzer (c : Controller) (o : Outputs) :
    (c.seeDecrement o).buzzer = c.buzzer := Controller.settle_buzzer c _
@[simp] theorem Controller.seeDecrement_windowPos (c : Controller) (o : Outputs) :
    (c.seeDecrement o).windowPos = c.windowPos := Controller.settle_windowPos c _

@[simp] theorem Controller.poll_buzzer (c : Controller) (l : HostLines) : (c.poll l).buzzer = c.buzzer := rfl
@[simp] theorem Controller.poll_latch (c : Controller) (l : HostLines) : (c.poll l).latch = c.latch := rfl

@[simp] theorem Controller.noteTick_buzzer (c : Controller) (o : Outputs) : (c.noteTick o).buzzer = c.buzzer := by
  unfold Controller.noteTick; split <;> rfl

@[simp] theorem Controller.issue_buzzer (k : BuzzConfig) (c : Controller) (o : Outputs) :
    (c.issue k o).1.buzzer = c.buzzer := by
  unfold Controller.issue; split <;> rfl

/-- No window cycle drives the buzzer before the iteration's end. -/
@[simp] theorem Controller.window_buzzer (k : BuzzConfig) (u : Nat) (c : Controller) (l : HostLines) (o : Outputs) :
    (c.window k u l o).1.buzzer = c.buzzer := by
  have polled : (if c.windowPos = min 1 (u - 1) then c.poll l else c).buzzer = c.buzzer := by split <;> rfl
  have part : ∀ d : Controller,
      (if c.windowPos = 0 then (d.noteTick o, 0#4) else d.issue k o).1.buzzer = d.buzzer := by
    intro d; split <;> simp
  exact (part _).trans polled

end Sys2Proof.Machine
end

