-- ==== Sys2Proof/Laws/Counter.lean ====
section
/-! SUPPORT. The arithmetic of the time counter on natural numbers, and that it keeps the triple valid
(spec/41_counter.md R121 to R126; 10_state.md R23). -/

namespace Sys2Proof.Machine

theorem TimeValue.legal_iff (t : TimeValue) :
    t.legal = true ↔ t.sec.toNat ≤ 59 ∧ t.min.toNat ≤ 59 ∧ t.hr.toNat ≤ 23 := by
  simp [TimeValue.legal, BitVec.le_def, and_assoc]

theorem TimeValue.ext_toNat {t u : TimeValue} (hh : t.hr.toNat = u.hr.toNat) (hm : t.min.toNat = u.min.toNat)
    (hs : t.sec.toNat = u.sec.toNat) : t = u := by
  cases t; cases u
  simp_all [BitVec.toNat_inj]

@[simp] theorem TimeValue.zero_legal : TimeValue.zero.legal = true := by decide

/-- What `incM` can do. -/
theorem TimeValue.incM_cases (t : TimeValue) (h : t.legal = true) :
    (t.min.toNat < 59 ∧ t.incM.min.toNat = t.min.toNat + 1 ∧ t.incM.hr = t.hr ∧ t.incM.sec = t.sec) ∨
    (t.min.toNat = 59 ∧ t.hr.toNat < 23 ∧ t.incM.min = 0#6 ∧ t.incM.hr.toNat = t.hr.toNat + 1 ∧
      t.incM.sec = t.sec) ∨
    (t.min.toNat = 59 ∧ t.hr.toNat = 23 ∧ t.incM = TimeValue.zero) := by
  obtain ⟨_, hm, hh⟩ := t.legal_iff.1 h
  unfold TimeValue.incM
  simp only [BitVec.lt_def, BitVec.toNat_ofNat]
  split
  · exact .inl ⟨by omega, by simp [BitVec.toNat_add]; omega, rfl, rfl⟩
  · split
    · exact .inr (.inl ⟨by omega, by omega, rfl, by simp [BitVec.toNat_add]; omega, rfl⟩)
    · exact .inr (.inr ⟨by omega, by omega, rfl⟩)

/-- What `decM` can do. -/
theorem TimeValue.decM_cases (t : TimeValue) :
    (0 < t.min.toNat ∧ t.decM.min.toNat = t.min.toNat - 1 ∧ t.decM.hr = t.hr ∧ t.decM.sec = t.sec) ∨
    (t.min.toNat = 0 ∧ 0 < t.hr.toNat ∧ t.decM.min = 59#6 ∧ t.decM.hr.toNat = t.hr.toNat - 1 ∧
      t.decM.sec = t.sec) ∨
    (t.min.toNat = 0 ∧ t.hr.toNat = 0 ∧ t.decM = t) := by
  have := t.min.isLt
  have := t.hr.isLt
  unfold TimeValue.decM
  simp only [BitVec.lt_def, BitVec.toNat_ofNat]
  split
  · exact .inl ⟨by omega, by simp [BitVec.toNat_sub]; omega, rfl, rfl⟩
  · split
    · exact .inr (.inl ⟨by omega, by omega, rfl, by simp [BitVec.toNat_sub]; omega, rfl⟩)
    · exact .inr (.inr ⟨by omega, by omega, rfl⟩)

/-- What `incS` can do. -/
theorem TimeValue.incS_cases (t : TimeValue) (h : t.legal = true) :
    (t.sec.toNat < 59 ∧ t.incS.sec.toNat = t.sec.toNat + 1 ∧ t.incS.min = t.min ∧ t.incS.hr = t.hr) ∨
    (t.sec.toNat = 59 ∧ t.incS = TimeValue.incM { t with sec := 0#6 }) := by
  obtain ⟨hs, _, _⟩ := t.legal_iff.1 h
  unfold TimeValue.incS
  simp only [BitVec.lt_def, BitVec.toNat_ofNat]
  split
  · exact .inl ⟨by omega, by simp [BitVec.toNat_add]; omega, rfl, rfl⟩
  · exact .inr ⟨by omega, rfl⟩

/-- What `decS` can do. -/
theorem TimeValue.decS_cases (t : TimeValue) :
    (0 < t.sec.toNat ∧ t.decS.sec.toNat = t.sec.toNat - 1 ∧ t.decS.min = t.min ∧ t.decS.hr = t.hr) ∨
    (t.sec.toNat = 0 ∧ t.min.toNat = 0 ∧ t.hr.toNat = 0 ∧ t.decS = TimeValue.zero) ∨
    (t.sec.toNat = 0 ∧ (0 < t.min.toNat ∨ 0 < t.hr.toNat) ∧ t.decS = { t.decM with sec := 59#6 }) := by
  have := t.sec.isLt
  unfold TimeValue.decS
  simp only [BitVec.lt_def, BitVec.toNat_ofNat, ← BitVec.toNat_inj]
  split
  · exact .inl ⟨by omega, by simp [BitVec.toNat_sub]; omega, rfl, rfl⟩
  · split
    · rename_i h0 h
      exact .inr (.inl ⟨by omega, h.1, h.2, rfl⟩)
    · rename_i h0 h
      exact .inr (.inr ⟨by omega, by simp at h; omega, rfl⟩)

/-- What `incH` can do. -/
theorem TimeValue.incH_cases (t : TimeValue) :
    (t.hr.toNat < 23 ∧ t.incH.hr.toNat = t.hr.toNat + 1 ∧ t.incH.min = t.min ∧ t.incH.sec = t.sec) ∨
    (23 ≤ t.hr.toNat ∧ t.incH = t) := by
  unfold TimeValue.incH
  simp only [BitVec.lt_def, BitVec.toNat_ofNat]
  split
  · exact .inl ⟨by omega, by simp [BitVec.toNat_add]; omega, rfl, rfl⟩
  · exact .inr ⟨by omega, rfl⟩

/-- What `decH` can do. -/
theorem TimeValue.decH_cases (t : TimeValue) :
    (0 < t.hr.toNat ∧ t.decH.hr.toNat = t.hr.toNat - 1 ∧ t.decH.min = t.min ∧ t.decH.sec = t.sec) ∨
    (t.hr.toNat = 0 ∧ t.decH = t) := by
  have := t.hr.isLt
  unfold TimeValue.decH
  simp only [BitVec.lt_def, BitVec.toNat_ofNat]
  split
  · exact .inl ⟨by omega, by simp [BitVec.toNat_sub]; omega, rfl, rfl⟩
  · exact .inr ⟨by omega, rfl⟩

theorem TimeValue.incM_legal (t : TimeValue) (h : t.legal = true) : t.incM.legal = true := by
  have := t.legal_iff.1 h
  obtain h1 | h1 | ⟨-, -, h1⟩ := t.incM_cases h
  · rw [TimeValue.legal_iff, h1.2.2.1, h1.2.2.2]; omega
  · rw [TimeValue.legal_iff, h1.2.2.1, h1.2.2.2.2]; simp; omega
  · rw [h1]; exact TimeValue.zero_legal

theorem TimeValue.incS_legal (t : TimeValue) (h : t.legal = true) : t.incS.legal = true := by
  have h0 := t.legal_iff.1 h
  obtain h1 | ⟨-, h1⟩ := t.incS_cases h
  · rw [TimeValue.legal_iff, h1.2.2.1, h1.2.2.2]; omega
  · rw [h1]; exact TimeValue.incM_legal _ (by rw [TimeValue.legal_iff]; simpa using h0.2)

theorem TimeValue.decM_legal (t : TimeValue) (h : t.legal = true) : t.decM.legal = true := by
  have := t.legal_iff.1 h
  obtain h1 | h1 | ⟨-, -, h1⟩ := t.decM_cases
  · rw [TimeValue.legal_iff, h1.2.2.1, h1.2.2.2]; omega
  · rw [TimeValue.legal_iff, h1.2.2.1, h1.2.2.2.2]; simp; omega
  · rw [h1]; exact h

theorem TimeValue.decS_legal (t : TimeValue) (h : t.legal = true) : t.decS.legal = true := by
  have h0 := t.legal_iff.1 h
  have hd := (TimeValue.legal_iff _).1 (t.decM_legal h)
  obtain h1 | ⟨-, -, -, h1⟩ | ⟨-, -, h1⟩ := t.decS_cases
  · rw [TimeValue.legal_iff, h1.2.2.1, h1.2.2.2]; omega
  · rw [h1]; exact TimeValue.zero_legal
  · rw [h1, TimeValue.legal_iff]; simpa using hd.2

theorem TimeValue.incH_legal (t : TimeValue) (h : t.legal = true) : t.incH.legal = true := by
  have := t.legal_iff.1 h
  obtain h1 | ⟨-, h1⟩ := t.incH_cases
  · rw [TimeValue.legal_iff, h1.2.2.1, h1.2.2.2]; omega
  · rw [h1]; exact h

theorem TimeValue.decH_legal (t : TimeValue) (h : t.legal = true) : t.decH.legal = true := by
  have := t.legal_iff.1 h
  obtain h1 | ⟨-, h1⟩ := t.decH_cases
  · rw [TimeValue.legal_iff, h1.2.2.1, h1.2.2.2]; omega
  · rw [h1]; exact h

theorem TimeValue.tick_legal (t : TimeValue) (d : Bool) (h : t.legal = true) : (t.tick d).legal = true := by
  unfold TimeValue.tick
  split
  · exact t.decS_legal h
  · exact t.incS_legal h

/-- The digit of a value below 100 is a decimal digit. -/
theorem digit_le_nine (p : Position) (t : TimeValue) : digit p t ≤ 9#4 := by
  have := t.sec.isLt
  have := t.min.isLt
  have := t.hr.isLt
  cases p <;> simp only [digit, onesOf, tensOf, BitVec.le_def, BitVec.toNat_ofNat] <;> omega

end Sys2Proof.Machine
end

