-- ==== Sys2Proof/Laws/State.lean ====
section
/-! SUPPORT. One lemma per field per update of `State`, so that no later proof unfolds a record update, and the
fields the parts of `closeCycle` leave alone. -/

namespace Sys2Proof.Machine

@[simp] theorem State.setTime_time (s : State) (v : TimeValue) : (s.setTime v).time = v := rfl
@[simp] theorem State.setTime_dir (s : State) (v : TimeValue) : (s.setTime v).dir = s.dir := rfl
@[simp] theorem State.setTime_run (s : State) (v : TimeValue) : (s.setTime v).run = s.run := rfl
@[simp] theorem State.setTime_pend (s : State) (v : TimeValue) : (s.setTime v).pend = s.pend := rfl
@[simp] theorem State.setTime_tcnt (s : State) (v : TimeValue) : (s.setTime v).tcnt = s.tcnt := rfl
@[simp] theorem State.setTime_slot (s : State) (v : TimeValue) : (s.setTime v).slot = s.slot := rfl
@[simp] theorem State.setTime_dcnt (s : State) (v : TimeValue) : (s.setTime v).dcnt = s.dcnt := rfl
@[simp] theorem State.setTime_busR (s : State) (v : TimeValue) : (s.setTime v).busR = s.busR := rfl
@[simp] theorem State.setTime_syncRst (s : State) (v : TimeValue) : (s.setTime v).syncRst = s.syncRst := rfl
@[simp] theorem State.setTime_syncPse (s : State) (v : TimeValue) : (s.setTime v).syncPse = s.syncPse := rfl
@[simp] theorem State.setTime_syncRsm (s : State) (v : TimeValue) : (s.setTime v).syncRsm = s.syncRsm := rfl
@[simp] theorem State.setTime_cfg (s : State) (v : TimeValue) : (s.setTime v).cfg = s.cfg := rfl
@[simp] theorem State.setTime_ports (s : State) (v : TimeValue) : (s.setTime v).ports = s.ports := rfl
@[simp] theorem State.setTime_script (s : State) (v : TimeValue) : (s.setTime v).script = s.script := rfl

@[simp] theorem State.setDir_time (s : State) (v : Bool) : (s.setDir v).time = s.time := rfl
@[simp] theorem State.setDir_dir (s : State) (v : Bool) : (s.setDir v).dir = v := rfl
@[simp] theorem State.setDir_run (s : State) (v : Bool) : (s.setDir v).run = s.run := rfl
@[simp] theorem State.setDir_pend (s : State) (v : Bool) : (s.setDir v).pend = s.pend := rfl
@[simp] theorem State.setDir_tcnt (s : State) (v : Bool) : (s.setDir v).tcnt = s.tcnt := rfl
@[simp] theorem State.setDir_slot (s : State) (v : Bool) : (s.setDir v).slot = s.slot := rfl
@[simp] theorem State.setDir_dcnt (s : State) (v : Bool) : (s.setDir v).dcnt = s.dcnt := rfl
@[simp] theorem State.setDir_busR (s : State) (v : Bool) : (s.setDir v).busR = s.busR := rfl
@[simp] theorem State.setDir_syncRst (s : State) (v : Bool) : (s.setDir v).syncRst = s.syncRst := rfl
@[simp] theorem State.setDir_syncPse (s : State) (v : Bool) : (s.setDir v).syncPse = s.syncPse := rfl
@[simp] theorem State.setDir_syncRsm (s : State) (v : Bool) : (s.setDir v).syncRsm = s.syncRsm := rfl
@[simp] theorem State.setDir_cfg (s : State) (v : Bool) : (s.setDir v).cfg = s.cfg := rfl
@[simp] theorem State.setDir_ports (s : State) (v : Bool) : (s.setDir v).ports = s.ports := rfl
@[simp] theorem State.setDir_script (s : State) (v : Bool) : (s.setDir v).script = s.script := rfl

@[simp] theorem State.setRun_time (s : State) (v : Bool) : (s.setRun v).time = s.time := rfl
@[simp] theorem State.setRun_dir (s : State) (v : Bool) : (s.setRun v).dir = s.dir := rfl
@[simp] theorem State.setRun_run (s : State) (v : Bool) : (s.setRun v).run = v := rfl
@[simp] theorem State.setRun_pend (s : State) (v : Bool) : (s.setRun v).pend = s.pend := rfl
@[simp] theorem State.setRun_tcnt (s : State) (v : Bool) : (s.setRun v).tcnt = s.tcnt := rfl
@[simp] theorem State.setRun_slot (s : State) (v : Bool) : (s.setRun v).slot = s.slot := rfl
@[simp] theorem State.setRun_dcnt (s : State) (v : Bool) : (s.setRun v).dcnt = s.dcnt := rfl
@[simp] theorem State.setRun_busR (s : State) (v : Bool) : (s.setRun v).busR = s.busR := rfl
@[simp] theorem State.setRun_syncRst (s : State) (v : Bool) : (s.setRun v).syncRst = s.syncRst := rfl
@[simp] theorem State.setRun_syncPse (s : State) (v : Bool) : (s.setRun v).syncPse = s.syncPse := rfl
@[simp] theorem State.setRun_syncRsm (s : State) (v : Bool) : (s.setRun v).syncRsm = s.syncRsm := rfl
@[simp] theorem State.setRun_cfg (s : State) (v : Bool) : (s.setRun v).cfg = s.cfg := rfl
@[simp] theorem State.setRun_ports (s : State) (v : Bool) : (s.setRun v).ports = s.ports := rfl
@[simp] theorem State.setRun_script (s : State) (v : Bool) : (s.setRun v).script = s.script := rfl

@[simp] theorem State.setPend_time (s : State) (v : Bool) : (s.setPend v).time = s.time := rfl
@[simp] theorem State.setPend_dir (s : State) (v : Bool) : (s.setPend v).dir = s.dir := rfl
@[simp] theorem State.setPend_run (s : State) (v : Bool) : (s.setPend v).run = s.run := rfl
@[simp] theorem State.setPend_pend (s : State) (v : Bool) : (s.setPend v).pend = v := rfl
@[simp] theorem State.setPend_tcnt (s : State) (v : Bool) : (s.setPend v).tcnt = s.tcnt := rfl
@[simp] theorem State.setPend_slot (s : State) (v : Bool) : (s.setPend v).slot = s.slot := rfl
@[simp] theorem State.setPend_dcnt (s : State) (v : Bool) : (s.setPend v).dcnt = s.dcnt := rfl
@[simp] theorem State.setPend_busR (s : State) (v : Bool) : (s.setPend v).busR = s.busR := rfl
@[simp] theorem State.setPend_syncRst (s : State) (v : Bool) : (s.setPend v).syncRst = s.syncRst := rfl
@[simp] theorem State.setPend_syncPse (s : State) (v : Bool) : (s.setPend v).syncPse = s.syncPse := rfl
@[simp] theorem State.setPend_syncRsm (s : State) (v : Bool) : (s.setPend v).syncRsm = s.syncRsm := rfl
@[simp] theorem State.setPend_cfg (s : State) (v : Bool) : (s.setPend v).cfg = s.cfg := rfl
@[simp] theorem State.setPend_ports (s : State) (v : Bool) : (s.setPend v).ports = s.ports := rfl
@[simp] theorem State.setPend_script (s : State) (v : Bool) : (s.setPend v).script = s.script := rfl

@[simp] theorem State.setTcnt_time (s : State) (v : Nat) : (s.setTcnt v).time = s.time := rfl
@[simp] theorem State.setTcnt_dir (s : State) (v : Nat) : (s.setTcnt v).dir = s.dir := rfl
@[simp] theorem State.setTcnt_run (s : State) (v : Nat) : (s.setTcnt v).run = s.run := rfl
@[simp] theorem State.setTcnt_pend (s : State) (v : Nat) : (s.setTcnt v).pend = s.pend := rfl
@[simp] theorem State.setTcnt_tcnt (s : State) (v : Nat) : (s.setTcnt v).tcnt = v := rfl
@[simp] theorem State.setTcnt_slot (s : State) (v : Nat) : (s.setTcnt v).slot = s.slot := rfl
@[simp] theorem State.setTcnt_dcnt (s : State) (v : Nat) : (s.setTcnt v).dcnt = s.dcnt := rfl
@[simp] theorem State.setTcnt_busR (s : State) (v : Nat) : (s.setTcnt v).busR = s.busR := rfl
@[simp] theorem State.setTcnt_syncRst (s : State) (v : Nat) : (s.setTcnt v).syncRst = s.syncRst := rfl
@[simp] theorem State.setTcnt_syncPse (s : State) (v : Nat) : (s.setTcnt v).syncPse = s.syncPse := rfl
@[simp] theorem State.setTcnt_syncRsm (s : State) (v : Nat) : (s.setTcnt v).syncRsm = s.syncRsm := rfl
@[simp] theorem State.setTcnt_cfg (s : State) (v : Nat) : (s.setTcnt v).cfg = s.cfg := rfl
@[simp] theorem State.setTcnt_ports (s : State) (v : Nat) : (s.setTcnt v).ports = s.ports := rfl
@[simp] theorem State.setTcnt_script (s : State) (v : Nat) : (s.setTcnt v).script = s.script := rfl

@[simp] theorem advancePorts_time (s : State) : (advancePorts s).time = s.time := rfl
@[simp] theorem advancePorts_dir (s : State) : (advancePorts s).dir = s.dir := rfl
@[simp] theorem advancePorts_run (s : State) : (advancePorts s).run = s.run := rfl
@[simp] theorem advancePorts_pend (s : State) : (advancePorts s).pend = s.pend := rfl
@[simp] theorem advancePorts_tcnt (s : State) : (advancePorts s).tcnt = s.tcnt := rfl
@[simp] theorem advancePorts_slot (s : State) : (advancePorts s).slot = s.slot := rfl
@[simp] theorem advancePorts_dcnt (s : State) : (advancePorts s).dcnt = s.dcnt := rfl
@[simp] theorem advancePorts_busR (s : State) : (advancePorts s).busR = s.busR := rfl
@[simp] theorem advancePorts_syncRst (s : State) : (advancePorts s).syncRst = s.syncRst := rfl
@[simp] theorem advancePorts_syncPse (s : State) : (advancePorts s).syncPse = s.syncPse := rfl
@[simp] theorem advancePorts_syncRsm (s : State) : (advancePorts s).syncRsm = s.syncRsm := rfl
@[simp] theorem advancePorts_cfg (s : State) : (advancePorts s).cfg = s.cfg := rfl
@[simp] theorem advancePorts_ports (s : State) : (advancePorts s).ports = nextPorts s := rfl
@[simp] theorem advancePorts_script (s : State) : (advancePorts s).script = s.script.tail := rfl

@[simp] theorem samplePins_time (s t : State) : (samplePins s t).time = t.time := rfl
@[simp] theorem samplePins_dir (s t : State) : (samplePins s t).dir = t.dir := rfl
@[simp] theorem samplePins_run (s t : State) : (samplePins s t).run = t.run := rfl
@[simp] theorem samplePins_pend (s t : State) : (samplePins s t).pend = t.pend := rfl
@[simp] theorem samplePins_tcnt (s t : State) : (samplePins s t).tcnt = t.tcnt := rfl
@[simp] theorem samplePins_slot (s t : State) : (samplePins s t).slot = t.slot := rfl
@[simp] theorem samplePins_dcnt (s t : State) : (samplePins s t).dcnt = t.dcnt := rfl
@[simp] theorem samplePins_busR (s t : State) : (samplePins s t).busR = t.busR := rfl
@[simp] theorem samplePins_syncRst (s t : State) : (samplePins s t).syncRst = s.syncRst.sample s.ports.pinRst := rfl
@[simp] theorem samplePins_syncPse (s t : State) : (samplePins s t).syncPse = s.syncPse.sample s.ports.pinPse := rfl
@[simp] theorem samplePins_syncRsm (s t : State) : (samplePins s t).syncRsm = s.syncRsm.sample s.ports.pinRsm := rfl
@[simp] theorem samplePins_cfg (s t : State) : (samplePins s t).cfg = t.cfg := rfl
@[simp] theorem samplePins_ports (s t : State) : (samplePins s t).ports = t.ports := rfl
@[simp] theorem samplePins_script (s t : State) : (samplePins s t).script = t.script := rfl

@[simp] theorem advanceSequencer_time (s t : State) : (advanceSequencer s t).time = t.time := rfl
@[simp] theorem advanceSequencer_dir (s t : State) : (advanceSequencer s t).dir = t.dir := rfl
@[simp] theorem advanceSequencer_run (s t : State) : (advanceSequencer s t).run = t.run := rfl
@[simp] theorem advanceSequencer_pend (s t : State) : (advanceSequencer s t).pend = t.pend := rfl
@[simp] theorem advanceSequencer_tcnt (s t : State) : (advanceSequencer s t).tcnt = t.tcnt := rfl
@[simp] theorem advanceSequencer_slot (s t : State) : (advanceSequencer s t).slot = nextSlot s := rfl
@[simp] theorem advanceSequencer_dcnt (s t : State) : (advanceSequencer s t).dcnt = nextDcnt s := rfl
@[simp] theorem advanceSequencer_busR (s t : State) : (advanceSequencer s t).busR = t.busR := rfl
@[simp] theorem advanceSequencer_syncRst (s t : State) : (advanceSequencer s t).syncRst = t.syncRst := rfl
@[simp] theorem advanceSequencer_syncPse (s t : State) : (advanceSequencer s t).syncPse = t.syncPse := rfl
@[simp] theorem advanceSequencer_syncRsm (s t : State) : (advanceSequencer s t).syncRsm = t.syncRsm := rfl
@[simp] theorem advanceSequencer_cfg (s t : State) : (advanceSequencer s t).cfg = t.cfg := rfl
@[simp] theorem advanceSequencer_ports (s t : State) : (advanceSequencer s t).ports = t.ports := rfl
@[simp] theorem advanceSequencer_script (s t : State) : (advanceSequencer s t).script = t.script := rfl

@[simp] theorem countUp_time (s t : State) : (countUp s t).time = t.time := by
  unfold countUp; split <;> rfl
@[simp] theorem countUp_dir (s t : State) : (countUp s t).dir = t.dir := by
  unfold countUp; split <;> rfl
@[simp] theorem countUp_run (s t : State) : (countUp s t).run = t.run := by
  unfold countUp; split <;> rfl
@[simp] theorem countUp_pend (s t : State) : (countUp s t).pend = t.pend := by
  unfold countUp; split <;> rfl
theorem countUp_tcnt (s t : State) :
    (countUp s t).tcnt = if s.run && !wrap s && !rstEdge s then s.tcnt + 1 else t.tcnt := by
  unfold countUp; split <;> rfl
@[simp] theorem countUp_slot (s t : State) : (countUp s t).slot = t.slot := by
  unfold countUp; split <;> rfl
@[simp] theorem countUp_dcnt (s t : State) : (countUp s t).dcnt = t.dcnt := by
  unfold countUp; split <;> rfl
@[simp] theorem countUp_busR (s t : State) : (countUp s t).busR = t.busR := by
  unfold countUp; split <;> rfl
@[simp] theorem countUp_syncRst (s t : State) : (countUp s t).syncRst = t.syncRst := by
  unfold countUp; split <;> rfl
@[simp] theorem countUp_syncPse (s t : State) : (countUp s t).syncPse = t.syncPse := by
  unfold countUp; split <;> rfl
@[simp] theorem countUp_syncRsm (s t : State) : (countUp s t).syncRsm = t.syncRsm := by
  unfold countUp; split <;> rfl
@[simp] theorem countUp_cfg (s t : State) : (countUp s t).cfg = t.cfg := by
  unfold countUp; split <;> rfl
@[simp] theorem countUp_ports (s t : State) : (countUp s t).ports = t.ports := by
  unfold countUp; split <;> rfl
@[simp] theorem countUp_script (s t : State) : (countUp s t).script = t.script := by
  unfold countUp; split <;> rfl

@[simp] theorem latchBus_time (s t : State) : (latchBus s t).time = t.time := by
  unfold latchBus; split; (· cases Position.ofSlot (nextSlot s) <;> rfl); rfl
@[simp] theorem latchBus_dir (s t : State) : (latchBus s t).dir = t.dir := by
  unfold latchBus; split; (· cases Position.ofSlot (nextSlot s) <;> rfl); rfl
@[simp] theorem latchBus_run (s t : State) : (latchBus s t).run = t.run := by
  unfold latchBus; split; (· cases Position.ofSlot (nextSlot s) <;> rfl); rfl
@[simp] theorem latchBus_pend (s t : State) : (latchBus s t).pend = t.pend := by
  unfold latchBus; split; (· cases Position.ofSlot (nextSlot s) <;> rfl); rfl
@[simp] theorem latchBus_tcnt (s t : State) : (latchBus s t).tcnt = t.tcnt := by
  unfold latchBus; split; (· cases Position.ofSlot (nextSlot s) <;> rfl); rfl
@[simp] theorem latchBus_slot (s t : State) : (latchBus s t).slot = t.slot := by
  unfold latchBus; split; (· cases Position.ofSlot (nextSlot s) <;> rfl); rfl
@[simp] theorem latchBus_dcnt (s t : State) : (latchBus s t).dcnt = t.dcnt := by
  unfold latchBus; split; (· cases Position.ofSlot (nextSlot s) <;> rfl); rfl
theorem latchBus_busR (s t : State) :
    (latchBus s t).busR =
      if lastOfSlot s then (match Position.ofSlot (nextSlot s) with | some p => digit p t.time | none => t.busR)
      else t.busR := by
  unfold latchBus
  split
  · cases Position.ofSlot (nextSlot s) <;> rfl
  · rfl
@[simp] theorem latchBus_syncRst (s t : State) : (latchBus s t).syncRst = t.syncRst := by
  unfold latchBus; split; (· cases Position.ofSlot (nextSlot s) <;> rfl); rfl
@[simp] theorem latchBus_syncPse (s t : State) : (latchBus s t).syncPse = t.syncPse := by
  unfold latchBus; split; (· cases Position.ofSlot (nextSlot s) <;> rfl); rfl
@[simp] theorem latchBus_syncRsm (s t : State) : (latchBus s t).syncRsm = t.syncRsm := by
  unfold latchBus; split; (· cases Position.ofSlot (nextSlot s) <;> rfl); rfl
@[simp] theorem latchBus_cfg (s t : State) : (latchBus s t).cfg = t.cfg := by
  unfold latchBus; split; (· cases Position.ofSlot (nextSlot s) <;> rfl); rfl
@[simp] theorem latchBus_ports (s t : State) : (latchBus s t).ports = t.ports := by
  unfold latchBus; split; (· cases Position.ofSlot (nextSlot s) <;> rfl); rfl
@[simp] theorem latchBus_script (s t : State) : (latchBus s t).script = t.script := by
  unfold latchBus; split; (· cases Position.ofSlot (nextSlot s) <;> rfl); rfl

end Sys2Proof.Machine
end

