-- ==== Sys2Proof/Laws/Ops.lean ====
section
/-! SUPPORT. What each shared operation can do, once: the guard of R24, a command, each operation on a valid time
value, and what every operation leaves alone. -/

namespace Sys2Proof.Machine

theorem onLegalTime_of_legal {s : State} (t : State) (h : s.time.legal = true) : onLegalTime s t = .next t := by
  simp [onLegalTime, h]

theorem onLegalTime_of_not_legal {s : State} (t : State) (h : s.time.legal = false) :
    onLegalTime s t = .refused .timeOutOfRange := by
  simp [onLegalTime, h]

/-- If the guard answers a next state, the time value was valid and it is the state it was given. -/
theorem onLegalTime_next {s t u : State} (h : onLegalTime s t = .next u) : s.time.legal = true ∧ u = t := by
  unfold onLegalTime at h
  split at h
  · next hl => exact ⟨hl, (Host.Outcome.next.inj h).symm⟩
  · cases h

/-- If a command answers a next state, the time value was valid, and it is the command's in the update window and
the old one elsewhere. -/
theorem applyCommand_next {f : TimeValue → TimeValue} {s u : State} (h : applyCommand f s = .next u) :
    s.time.legal = true ∧ (inWindow s = true ∧ u = s.setTime (f s.time) ∨ inWindow s = false ∧ u = s) := by
  obtain ⟨hl, rfl⟩ := onLegalTime_next h
  refine ⟨hl, ?_⟩
  cases hw : inWindow s <;> simp

/-- The state an operation leaves, on a valid time value. -/
def effect (i : Instr) (s : State) : State :=
  match i with
  | .nop | .reserved _ => s
  | .incS => if inWindow s then s.setTime s.time.incS else s
  | .decS => if inWindow s then s.setTime s.time.decS else s
  | .incM => if inWindow s then s.setTime s.time.incM else s
  | .decM => if inWindow s then s.setTime s.time.decM else s
  | .incH => if inWindow s then s.setTime s.time.incH else s
  | .decH => if inWindow s then s.setTime s.time.decH else s
  | .tgl => if inWindow s then s.setDir (!s.dir) else s
  | .extReset => if rstEdge s then (s.setTime TimeValue.zero).setTcnt 0 else s
  | .extPause => s.setRun (runAfterPause s)
  | .extResume => s.setRun (runAfterResume s)
  | .tickWrap => if wrap s then (s.setTcnt 0).setPend (pendAfterWrap s) else s
  | .tickApply => if tickDone s then (s.setTime (s.time.tick s.dir)).setPend false else s

/-- Every operation is the guard of R24 around its effect. -/
theorem exec_eq_onLegalTime (i : Instr) (s : State) : exec i s = onLegalTime s (effect i s) := by
  have same : (if inWindow s = true then s.setTime s.time else s) = s := by
    split <;> rfl
  cases i <;> first | rfl | exact congrArg (onLegalTime s) same

theorem exec_of_legal (i : Instr) {s : State} (h : s.time.legal = true) : exec i s = .next (effect i s) := by
  rw [exec_eq_onLegalTime, onLegalTime_of_legal _ h]

/-- If an operation answers a next state, the time value was valid and it is the operation's effect. -/
theorem exec_next {i : Instr} {s t : State} (h : exec i s = .next t) : s.time.legal = true ∧ t = effect i s := by
  rw [exec_eq_onLegalTime] at h
  exact onLegalTime_next h

/-- No operation faults. -/
theorem exec_ne_fault (i : Instr) (s : State) (r : Fault) : exec i s ≠ .fault r := nomatch r

/-- Every operation keeps the time value valid (10_state.md R23). -/
theorem effect_time_legal (i : Instr) (s : State) (h : s.time.legal = true) : (effect i s).time.legal = true := by
  cases i <;> simp only [effect] <;>
    first
    | assumption
    | (split
       · simp [h, TimeValue.incS_legal, TimeValue.decS_legal, TimeValue.incM_legal, TimeValue.decM_legal,
           TimeValue.incH_legal, TimeValue.decH_legal, TimeValue.tick_legal]
       · exact h)

/-- What no operation writes: the sequencer, the bus register, the synchronisers, the parameters, the inputs. -/
structure SameFrame (s t : State) : Prop where
  slot : t.slot = s.slot
  dcnt : t.dcnt = s.dcnt
  busR : t.busR = s.busR
  syncRst : t.syncRst = s.syncRst
  syncPse : t.syncPse = s.syncPse
  syncRsm : t.syncRsm = s.syncRsm
  cfg : t.cfg = s.cfg
  ports : t.ports = s.ports
  script : t.script = s.script

theorem SameFrame.refl (s : State) : SameFrame s s := ⟨rfl, rfl, rfl, rfl, rfl, rfl, rfl, rfl, rfl⟩

theorem SameFrame.trans {s t u : State} (h : SameFrame s t) (k : SameFrame t u) : SameFrame s u :=
  ⟨k.slot.trans h.slot, k.dcnt.trans h.dcnt, k.busR.trans h.busR, k.syncRst.trans h.syncRst,
    k.syncPse.trans h.syncPse, k.syncRsm.trans h.syncRsm, k.cfg.trans h.cfg, k.ports.trans h.ports,
    k.script.trans h.script⟩

theorem effect_sameFrame (i : Instr) (s : State) : SameFrame s (effect i s) := by
  cases i <;> simp only [effect] <;>
    first
    | exact SameFrame.refl s
    | exact ⟨rfl, rfl, rfl, rfl, rfl, rfl, rfl, rfl, rfl⟩
    | (split
       · exact ⟨rfl, rfl, rfl, rfl, rfl, rfl, rfl, rfl, rfl⟩
       · exact SameFrame.refl s)

/-- An operation's frame: if `exec` answers a next state, the registers no operation writes are unchanged. -/
theorem exec_sameFrame {i : Instr} {s t : State} (h : exec i s = .next t) : SameFrame s t := by
  rw [(exec_next h).2]; exact effect_sameFrame i s

@[simp] theorem Synchroniser.hold_q1 (b : Bool) : (Synchroniser.hold b).q1 = b := rfl
@[simp] theorem Synchroniser.hold_q2 (b : Bool) : (Synchroniser.hold b).q2 = b := rfl
@[simp] theorem Synchroniser.hold_h (b : Bool) : (Synchroniser.hold b).h = b := rfl
@[simp] theorem Synchroniser.hold_fell (b : Bool) : (Synchroniser.hold b).fell = false := by cases b <;> rfl
@[simp] theorem Synchroniser.hold_rose (b : Bool) : (Synchroniser.hold b).rose = false := by cases b <;> rfl
@[simp] theorem Synchroniser.sample_q1 (y : Synchroniser) (b : Bool) : (y.sample b).q1 = b := rfl
@[simp] theorem Synchroniser.sample_q2 (y : Synchroniser) (b : Bool) : (y.sample b).q2 = y.q1 := rfl
@[simp] theorem Synchroniser.sample_h (y : Synchroniser) (b : Bool) : (y.sample b).h = y.q2 := rfl

end Sys2Proof.Machine
end

