-- ==== Sys2Proof/Laws/Cycle.lean ====
section
/-! SUPPORT. What one clock edge can do: the operations of its agenda as one closed effect, and the cases of a
step. -/

namespace Sys2Proof.Machine

theorem eventWord_bits (s : State) :
    (eventWord s).getLsbD 0 = rstEdge s ∧ (eventWord s).getLsbD 1 = pseEdge s ∧
      (eventWord s).getLsbD 2 = rsmEdge s ∧ (eventWord s).getLsbD 3 = wrap s ∧
      (eventWord s).getLsbD 4 = tickDone s := by
  unfold eventWord
  cases tickDone s <;> cases wrap s <;> cases rsmEdge s <;> cases pseEdge s <;> cases rstEdge s <;> decide

theorem thenExec_of_legal (i : Instr) {s : State} (h : s.time.legal = true) :
    thenExec (.next s) i = .next (effect i s) := exec_of_legal i h

/-- A list of operations from a valid time value runs each one's effect in turn. -/
theorem execAll_of_legal (is : List Instr) : ∀ {s : State}, s.time.legal = true →
    execAll is s = .next (is.foldl (fun t i => effect i t) s) := by
  induction is with
  | nil => intro s _; rfl
  | cons i is ih =>
    intro s h
    have := ih (effect_time_legal i s h)
    simpa [execAll, thenExec_of_legal i h] using this

theorem foldl_effect_time_legal (is : List Instr) : ∀ {s : State}, s.time.legal = true →
    (is.foldl (fun t i => effect i t) s).time.legal = true := by
  induction is with
  | nil => intro s h; exact h
  | cons i is ih => intro s h; exact ih (effect_time_legal i s h)

theorem foldl_effect_sameFrame (is : List Instr) : ∀ s : State,
    SameFrame s (is.foldl (fun t i => effect i t) s) := by
  induction is with
  | nil => intro s; exact SameFrame.refl s
  | cons i is ih => intro s; exact (effect_sameFrame i s).trans (ih _)

/-- If the list answers a next state, a valid time value stays valid. -/
theorem execAll_sameFrame {is : List Instr} {s t : State} (h : s.time.legal = true)
    (ht : execAll is s = .next t) : SameFrame s t ∧ t.time.legal = true := by
  rw [execAll_of_legal is h] at ht
  cases ht
  exact ⟨foldl_effect_sameFrame is s, foldl_effect_time_legal is h⟩

/-- A cycle's six operations one after the other, each of which changes nothing where its condition is not met. -/
def operated (s : State) : State :=
  effect .extResume (effect .extPause (effect .extReset (effect .tickWrap
    (effect (decodeCmd s.ports.cmd) (effect .tickApply s)))))

theorem SameFrame.edges {s t : State} (h : SameFrame s t) :
    rstEdge t = rstEdge s ∧ pseEdge t = pseEdge s ∧ rsmEdge t = rsmEdge s ∧ inWindow t = inWindow s ∧
      consume t = consume s := by
  simp only [rstEdge, pseEdge, rsmEdge, inWindow, consume, h.syncRst, h.syncPse, h.syncRsm, h.slot, h.dcnt,
    and_self]

/-- A command writes the time value and the Mode alone. -/
theorem effect_command (w : CmdWord) (t : State) :
    effect (decodeCmd w) t =
      (if inWindow t then (t.setTime (cmdApply w t.time t.dir).1).setDir (cmdApply w t.time t.dir).2 else t) := by
  have key : ∀ b : Bool, ∀ u : State, u = (if b = true then u else u) := by intro b u; cases b <;> rfl
  have hw : w = 0#4 ∨ w = 1#4 ∨ w = 2#4 ∨ w = 3#4 ∨ w = 4#4 ∨ w = 5#4 ∨ w = 6#4 ∨ w = 7#4 ∨ w = 8#4 ∨ w = 9#4 ∨
      w = 10#4 ∨ w = 11#4 ∨ w = 12#4 ∨ w = 13#4 ∨ w = 14#4 ∨ w = 15#4 := by revert w; decide
  rcases hw with rfl | rfl | rfl | rfl | rfl | rfl | rfl | rfl | rfl | rfl | rfl | rfl | rfl | rfl | rfl | rfl <;>
    first
    | rfl
    | exact key (inWindow t) t

/-- Each operation of the cycle has no effect where its condition is not met. -/
theorem effect_of_not_met (t : State) :
    (tickDone t = false → effect .tickApply t = t) ∧ (wrap t = false → effect .tickWrap t = t) ∧
      (rstEdge t = false → effect .extReset t = t) ∧ (pseEdge t = false → effect .extPause t = t) ∧
      (rsmEdge t = false → effect .extResume t = t) := by
  refine ⟨?_, ?_, ?_, ?_, ?_⟩ <;> intro h <;> simp [effect, runAfterPause, runAfterResume, h, State.setRun]

/-- The tick application and the command leave what a wrap is computed from alone. -/
theorem wrap_after_command (s : State) :
    wrap (effect (decodeCmd s.ports.cmd) (effect .tickApply s)) = wrap s := by
  rw [effect_command]
  have h : wrap (effect .tickApply s) = wrap s := by simp only [effect]; split <;> rfl
  rw [← h]
  split <;> rfl

/-- The operations of the agenda come to all six in their order: an event whose bit is 0 has no effect. -/
theorem foldl_agenda (s : State) : (agenda s).foldl (fun t i => effect i t) s = operated s := by
  obtain ⟨h0, h1, h2, h3, h4⟩ := eventWord_bits s
  have f1 := effect_sameFrame .tickApply s
  have f2 := f1.trans (effect_sameFrame (decodeCmd s.ports.cmd) (effect .tickApply s))
  have f3 := f2.trans (effect_sameFrame .tickWrap _)
  have f4 := f3.trans (effect_sameFrame .extReset _)
  have f5 := f4.trans (effect_sameFrame .extPause _)
  have a1 : (eventsBeforeCommand (eventWord s)).foldl (fun t i => effect i t) s = effect .tickApply s := by
    unfold eventsBeforeCommand
    cases h : tickDone s
    · rw [(effect_of_not_met s).1 h, h4, h]; rfl
    · rw [h4, h]; rfl
  have one (b : Bool) (i : Instr) (t : State) (h : b = false → effect i t = t) :
      (if b = true then [i] else []).foldl (fun t i => effect i t) t = effect i t := by
    cases b
    · exact (h rfl).symm
    · rfl
  simp only [agenda, agendaOf, List.foldl_append, List.foldl_cons, a1, eventsAfterCommand, h0, h1, h2, h3]
  rw [one _ _ _ fun h => (effect_of_not_met _).2.1 ((wrap_after_command s).trans h)]
  rw [one _ _ _ fun h => (effect_of_not_met _).2.2.1 (f3.edges.1.trans h)]
  rw [one _ _ _ fun h => (effect_of_not_met _).2.2.2.1 (f4.edges.2.1.trans h)]
  rw [one _ _ _ fun h => (effect_of_not_met _).2.2.2.2 (f5.edges.2.2.1.trans h)]
  rfl

/-- On a valid time value the operations of a cycle answer `operated`. -/
theorem execAll_agenda {s : State} (h : s.time.legal = true) : execAll (agenda s) s = .next (operated s) := by
  rw [execAll_of_legal _ h, foldl_agenda]

theorem operated_sameFrame (s : State) : SameFrame s (operated s) := by
  rw [← foldl_agenda]; exact foldl_effect_sameFrame _ s

theorem operated_time_legal {s : State} (h : s.time.legal = true) : (operated s).time.legal = true := by
  rw [← foldl_agenda]; exact foldl_effect_time_legal _ h

/-- A step answers a next state in two ways only: the POR state, or a cycle of legal registers closed on what its
operations left. -/
theorem step_next_cases {s t : State} (h : step s = .next t) :
    s.cfg.ok = true ∧
      (s.ports.por = true ∧ t = advancePorts (porState s) ∨
        s.ports.por = false ∧ Legal s ∧ t = closeCycle s (operated s)) := by
  unfold step clockEdge at h
  split at h
  · cases h
  · next hc =>
    have hc : s.cfg.ok = true := by simpa using hc
    refine ⟨hc, ?_⟩
    split at h
    · next hp => exact .inl ⟨hp, (Host.Outcome.next.inj h).symm⟩
    · next hp =>
      split at h
      · cases h
      · next hr =>
        have hr : registersLegal s = true := by simpa using hr
        unfold runCycle at h
        cases hl : s.time.legal
        · have hx : ∀ i, exec i s = .refused .timeOutOfRange := fun i => by
            rw [exec_eq_onLegalTime, onLegalTime_of_not_legal _ hl]
          have stay : ∀ is : List Instr, is.foldl thenExec (.refused .timeOutOfRange) = .refused .timeOutOfRange := by
            intro is; induction is with
            | nil => rfl
            | cons i is ih => exact ih
          have : execAll (agenda s) s = .refused .timeOutOfRange := by
            cases ha : agenda s with
            | nil => simp [agenda, agendaOf] at ha
            | cons i is =>
              have : thenExec (.next s) i = .refused .timeOutOfRange := hx i
              simp only [execAll, List.foldl_cons, this, stay]
          rw [this] at h
          cases h
        · rw [execAll_agenda hl] at h
          exact .inr ⟨by simpa using hp, ⟨hc, hl, hr⟩, (Host.Outcome.next.inj h).symm⟩

/-- A step from a legal state without POR. -/
theorem step_of_legal {s : State} (h : Legal s) (hp : s.ports.por = false) :
    step s = .next (closeCycle s (operated s)) := by
  simp [step, clockEdge, runCycle, h.cfg, hp, h.regs, execAll_agenda h.time]

/-- A POR step. -/
theorem step_of_por {s : State} (h : s.cfg.ok = true) (hp : s.ports.por = true) :
    step s = .next (advancePorts (porState s)) := by
  simp [step, clockEdge, h, hp]

/-- What every cycle does, field by field. -/
theorem closeCycle_fields (s t : State) :
    (closeCycle s t).time = t.time ∧ (closeCycle s t).dir = t.dir ∧ (closeCycle s t).run = t.run ∧
      (closeCycle s t).pend = t.pend ∧ (closeCycle s t).slot = nextSlot s ∧ (closeCycle s t).dcnt = nextDcnt s ∧
      (closeCycle s t).tcnt = (if s.run && !wrap s && !rstEdge s then s.tcnt + 1 else t.tcnt) ∧
      (closeCycle s t).busR =
        (if lastOfSlot s then (match Position.ofSlot (nextSlot s) with | some p => digit p t.time | none => t.busR)
         else t.busR) ∧
      (closeCycle s t).syncRst = s.syncRst.sample s.ports.pinRst ∧
      (closeCycle s t).syncPse = s.syncPse.sample s.ports.pinPse ∧
      (closeCycle s t).syncRsm = s.syncRsm.sample s.ports.pinRsm ∧ (closeCycle s t).cfg = t.cfg := by
  have hb : (closeCycle s t).busR = (latchBus s (countUp s t)).busR := rfl
  refine ⟨?_, ?_, ?_, ?_, rfl, rfl, ?_, ?_, rfl, rfl, rfl, ?_⟩
  · simp [closeCycle]
  · simp [closeCycle]
  · simp [closeCycle]
  · simp [closeCycle]
  · simp [closeCycle, countUp_tcnt]
  · rw [hb]
    refine (latchBus_busR s (countUp s t)).trans ?_
    cases lastOfSlot s
    · exact countUp_busR s t
    · cases hq : Position.ofSlot (nextSlot s) <;> simp
  · simp [closeCycle]

/-- The environment's part of a closed cycle. -/
theorem closeCycle_inputs (s t : State) :
    (closeCycle s t).ports = nextPorts t ∧ (closeCycle s t).script = t.script.tail := by
  constructor <;> simp [closeCycle, nextPorts]

end Sys2Proof.Machine
end

