-- ==== Sys2Proof/Laws/PerInstr.lean ====
section
/-! SUPPORT. Statements made for every instruction, one lemma per constructor. -/

namespace Sys2Proof.Laws

/-- Decoding the encoding of a well-formed instruction gives it back (spec/30_encoding.md R76 to R78). -/
def DecodeEncode.Statement (i : Instr) : Prop := i.wellFormed = true → decode (encode i) = .ok i

theorem DecodeEncode.nop : DecodeEncode.Statement .nop := fun _ => rfl
theorem DecodeEncode.incS : DecodeEncode.Statement .incS := fun _ => rfl
theorem DecodeEncode.decS : DecodeEncode.Statement .decS := fun _ => rfl
theorem DecodeEncode.incM : DecodeEncode.Statement .incM := fun _ => rfl
theorem DecodeEncode.decM : DecodeEncode.Statement .decM := fun _ => rfl
theorem DecodeEncode.incH : DecodeEncode.Statement .incH := fun _ => rfl
theorem DecodeEncode.decH : DecodeEncode.Statement .decH := fun _ => rfl
theorem DecodeEncode.tgl : DecodeEncode.Statement .tgl := fun _ => rfl
theorem DecodeEncode.reserved (op : CmdWord) : DecodeEncode.Statement (.reserved op) := by
  have all : ∀ w : CmdWord, isReservedCode w = true → decodeCmd w = .reserved w := by decide
  exact fun h => congrArg Except.ok (all op h)
theorem DecodeEncode.extReset : DecodeEncode.Statement .extReset := fun _ => rfl
theorem DecodeEncode.extPause : DecodeEncode.Statement .extPause := fun _ => rfl
theorem DecodeEncode.extResume : DecodeEncode.Statement .extResume := fun _ => rfl
theorem DecodeEncode.tickWrap : DecodeEncode.Statement .tickWrap := fun _ => rfl
theorem DecodeEncode.tickApply : DecodeEncode.Statement .tickApply := fun _ => rfl

end Sys2Proof.Laws
end

