-- ==== Sys2Proof/Laws/Run.lean ====
section
/-! SUPPORT. What the operations of a cycle come to, register by register, and how runs of several cycles are
taken apart. -/

namespace Sys2Proof.Machine

theorem tickDone_iff (s : State) : tickDone s = true ↔ s.slot = 6#3 ∧ s.dcnt = 0 ∧ s.pend = true := by
  simp [tickDone, consume, inWindow, and_assoc]

/-- The tick application, register by register. -/
theorem effect_tickApply_fields (s : State) :
    (effect .tickApply s).time = afterTick s ∧ (effect .tickApply s).dir = s.dir ∧
      (effect .tickApply s).run = s.run ∧ (effect .tickApply s).tcnt = s.tcnt ∧
      (effect .tickApply s).pend = (s.pend && !consume s) := by
  cases h : tickDone s
  · have h' : ¬(s.slot = 6#3 ∧ s.dcnt = 0 ∧ s.pend = true) := by rw [← tickDone_iff]; simp [h]
    rw [(effect_of_not_met s).1 h]
    refine ⟨by simp [afterTick, h'], rfl, rfl, rfl, ?_⟩
    unfold tickDone at h
    cases hp : s.pend <;> simp_all
  · have h' := (tickDone_iff s).1 h
    have : effect .tickApply s = (s.setTime (s.time.tick s.dir)).setPend false := by simp [effect, h]
    rw [this]
    unfold tickDone at h
    refine ⟨?_, rfl, rfl, rfl, ?_⟩
    · rw [afterTick, if_pos h']; cases hd : s.dir <;> simp [TimeValue.tick]
    · simp_all

/-- The tick application and then the command, register by register. -/
theorem effect_command_fields (s : State) :
    let t := effect (decodeCmd s.ports.cmd) (effect .tickApply s)
    t.time = (afterCommand s).1 ∧ t.dir = (afterCommand s).2 ∧ t.run = s.run ∧ t.tcnt = s.tcnt ∧
      t.pend = (s.pend && !consume s) := by
  obtain ⟨a1, a2, a3, a4, a5⟩ := effect_tickApply_fields s
  have hw : inWindow (effect .tickApply s) = inWindow s := (effect_sameFrame .tickApply s).edges.2.2.2.1
  intro t
  have ht : t = _ := effect_command s.ports.cmd (effect .tickApply s)
  rw [hw] at ht
  by_cases h : inWindow s = true
  · rw [if_pos h] at ht
    have h' : s.slot = 6#3 := by simpa [inWindow] using h
    rw [ht]; simp [afterCommand, h', a1, a2, a3, a4, a5]
  · rw [if_neg h] at ht
    have h' : ¬s.slot = 6#3 := by simpa [inWindow] using h
    rw [ht]; simp [afterCommand, h', a1, a2, a3, a4, a5]

/-- The wrap, register by register. -/
theorem effect_tickWrap_fields (t : State) :
    (effect .tickWrap t).time = t.time ∧ (effect .tickWrap t).dir = t.dir ∧ (effect .tickWrap t).run = t.run ∧
      (effect .tickWrap t).pend = (tickOut t || t.pend) ∧
      (effect .tickWrap t).tcnt = if wrap t then 0 else t.tcnt := by
  cases h : wrap t
  · rw [(effect_of_not_met t).2.1 h]; simp [tickOut, h]
  · have e : effect .tickWrap t = (t.setTcnt 0).setPend (pendAfterWrap t) := by simp [effect, h]
    rw [e]; simp [pendAfterWrap, tickOut, h, Bool.or_comm]

/-- The reset edge, register by register. -/
theorem effect_extReset_fields (u : State) :
    (effect .extReset u).time = (if rstEdge u then TimeValue.zero else u.time) ∧
      (effect .extReset u).dir = u.dir ∧ (effect .extReset u).run = u.run ∧ (effect .extReset u).pend = u.pend ∧
      (effect .extReset u).tcnt = if rstEdge u then 0 else u.tcnt := by
  cases h : rstEdge u
  · rw [(effect_of_not_met u).2.2.1 h]; simp
  · have e : effect .extReset u = (u.setTime TimeValue.zero).setTcnt 0 := by simp [effect, h]
    rw [e]; simp

/-- The operations of a cycle, register by register. -/
theorem operated_fields (s : State) :
    (operated s).time = (if rstEdge s then TimeValue.zero else (afterCommand s).1) ∧
      (operated s).dir = (afterCommand s).2 ∧
      (operated s).run = (if rsmEdge s then true else if pseEdge s then false else s.run) ∧
      (operated s).pend = (tickOut s || (s.pend && !consume s)) ∧
      (operated s).tcnt = (if rstEdge s then 0 else if wrap s then 0 else s.tcnt) := by
  obtain ⟨b1, b2, b3, b4, b5⟩ := effect_command_fields s
  have f2 := (effect_sameFrame .tickApply s).trans (effect_sameFrame (decodeCmd s.ports.cmd) (effect .tickApply s))
  have hw := wrap_after_command s
  unfold operated
  generalize effect (decodeCmd s.ports.cmd) (effect .tickApply s) = t at *
  have f3 := f2.trans (effect_sameFrame .tickWrap t)
  obtain ⟨c1, c2, c3, c4, c5⟩ := effect_tickWrap_fields t
  rw [tickOut, hw, f2.edges.1] at c4
  rw [hw] at c5
  generalize effect .tickWrap t = u at *
  have f4 := f3.trans (effect_sameFrame .extReset u)
  obtain ⟨d1, d2, d3, d4, d5⟩ := effect_extReset_fields u
  rw [f3.edges.1] at d1 d5
  generalize effect .extReset u = v at *
  have g1 : pseEdge v = pseEdge s := f4.edges.2.1
  have g2 : rsmEdge (effect .extPause v) = rsmEdge s := (f4.trans (effect_sameFrame .extPause v)).edges.2.2.1
  have r : (effect .extResume (effect .extPause v)).run =
      (if rsmEdge s then true else if pseEdge s then false else v.run) := by
    show runAfterResume _ = _
    rw [runAfterResume, g2]
    show (if rsmEdge s = true then true else runAfterPause v) = _
    rw [runAfterPause, g1]
  refine ⟨?_, ?_, ?_, ?_, ?_⟩
  · show v.time = _; rw [d1, c1, b1]
  · show v.dir = _; rw [d2, c2, b2]
  · rw [r, d3, c3, b3]
  · show v.pend = _; rw [d4, c4, b5]; rfl
  · show v.tcnt = _; rw [d5, c5, b4]

/-- What a configuration the step accepts gives. -/
theorem Config.ok_bounds {c : Config} (h : c.ok = true) :
    8 ≤ c.tickDiv ∧ c.frame < c.tickDiv ∧ 1 ≤ c.dwell ∧ 1 ≤ c.u := by
  simp only [Config.ok, Bool.and_eq_true, decide_eq_true_eq] at h
  have : c.frame = 6 * c.dwell + c.u := rfl
  omega

/-- What legal registers give. -/
theorem registersLegal_bounds {s : State} (h : registersLegal s = true) :
    s.slot.toNat ≤ 6 ∧ s.dcnt < s.cfg.slotLength s.slot ∧ s.tcnt < s.cfg.tickDiv ∧ s.busR ≤ 9#4 := by
  simp only [registersLegal, Bool.and_eq_true, decide_eq_true_eq] at h
  exact ⟨by simpa [BitVec.le_def] using h.1.1.1, h.1.1.2, h.1.2, h.2⟩

theorem after_zero {s t : State} : After 0 s t ↔ t = s := by
  constructor
  · intro h; cases h; rfl
  · rintro rfl; rfl

theorem after_succ {k : Nat} {s t u : State} (h : step s = .next u) : After (k + 1) s t ↔ After k u t := by
  unfold After
  have e : Sys2Proof.core.step s = .next u := h
  simp only [Host.Core.run, e]

/-- A run answers one state only. -/
theorem after_det {k : Nat} {s t u : State} (h : After k s t) (h' : After k s u) : t = u := by
  unfold After at *; rw [h] at h'; cases h'; rfl

/-- The first cycle of a run. -/
theorem after_first {k : Nat} {s t : State} (h : After (k + 1) s t) : ∃ u, step s = .next u ∧ After k u t := by
  cases hs : step s with
  | next u => exact ⟨u, rfl, (after_succ hs).1 h⟩
  | fault r => exact nomatch r
  | refused r =>
    unfold After at h
    have e : Sys2Proof.core.step s = .refused r := hs
    simp only [Host.Core.run, e] at h
    cases h

/-- One more cycle at the end of a run. -/
theorem after_snoc {k : Nat} : ∀ {s t u : State}, After k s t → step t = .next u → After (k + 1) s u := by
  induction k with
  | zero => intro s t u h hs; rw [after_zero] at h; subst h; rw [after_succ hs]; exact after_zero.2 rfl
  | succ k ih =>
    intro s t u h hs
    obtain ⟨v, hv, h'⟩ := after_first h
    rw [after_succ hv]; exact ih h' hs

/-- A run followed by a run. -/
theorem after_add {j : Nat} : ∀ {k : Nat} {s t u : State}, After j s t → After k t u → After (j + k) s u := by
  induction j with
  | zero => intro k s t u h h'; rw [after_zero] at h; subst h; simpa using h'
  | succ j ih =>
    intro k s t u h h'
    obtain ⟨v, hv, h1⟩ := after_first h
    have : j + 1 + k = (j + k) + 1 := by omega
    rw [this, after_succ hv]; exact ih h1 h'

/-- What holds for `m` cycles holds in the cycle `k` of them. -/
theorem holdsFor_at {p : State → Bool} {m : Nat} : ∀ {k : Nat} {s t : State},
    holdsFor p m s = true → k < m → After k s t → p t = true := by
  induction m with
  | zero => intro k s t _ h; omega
  | succ m ih =>
    intro k s t h hk ha
    cases k with
    | zero => rw [after_zero] at ha; subst ha; simp only [holdsFor, Bool.and_eq_true] at h; exact h.1
    | succ k =>
      obtain ⟨u, hu, h'⟩ := after_first ha
      simp only [holdsFor, hu, Bool.and_eq_true] at h
      exact ih h.2 (by omega) h'

end Sys2Proof.Machine
end

