-- ==== Sys2Proof/Laws/Script.lean ====
section
/-! SUPPORT. The small lemmas of scripts: what presenting a script changes, and how its expansion is taken apart. -/

namespace Sys2Proof.Machine

@[simp] theorem State.withScript_nil (s : State) : s.withScript [] = s := rfl
@[simp] theorem State.withScript_time (s : State) (vs : List Ports) : (s.withScript vs).time = s.time := by
  cases vs <;> rfl
@[simp] theorem State.withScript_dir (s : State) (vs : List Ports) : (s.withScript vs).dir = s.dir := by
  cases vs <;> rfl
@[simp] theorem State.withScript_run (s : State) (vs : List Ports) : (s.withScript vs).run = s.run := by
  cases vs <;> rfl
@[simp] theorem State.withScript_pend (s : State) (vs : List Ports) : (s.withScript vs).pend = s.pend := by
  cases vs <;> rfl
@[simp] theorem State.withScript_cfg (s : State) (vs : List Ports) : (s.withScript vs).cfg = s.cfg := by
  cases vs <;> rfl
@[simp] theorem State.withScript_ports (s : State) (v : Ports) (vs : List Ports) :
    (s.withScript (v :: vs)).ports = v := rfl
@[simp] theorem State.withScript_script (s : State) (v : Ports) (vs : List Ports) :
    (s.withScript (v :: vs)).script = vs := rfl

/-- A state that already presents a script's vectors is unchanged by presenting them. -/
theorem State.withScript_self {u : State} {vs : List Ports} (hp : vs ≠ [] → u.ports = vs.headD u.ports)
    (hs : u.script = vs.tail) : u.withScript vs = u := by
  cases vs with
  | nil => rfl
  | cons v vs =>
    have := hp (by simp)
    cases u; simp_all [State.withScript]

@[simp] theorem Cursor.idle_length (k : Cursor) (n : Nat) : (k.idle n).length = n := by simp [Cursor.idle]

/-- A command line is expanded to the idle cycles before the first command cycle and then its code. -/
theorem Line.expand_cmd {cfg : Config} {k : Cursor} {i : Instr} {w : CmdWord} (hw : codeOf i = some w)
    (hu : 2 ≤ cfg.u) :
    Line.expand cfg k (.cmd i) =
      some (k.idle (6 * cfg.dwell + 1 - k.cycle % cfg.frame) ++ [k.vector false w],
        { k with cycle := k.cycle + (6 * cfg.dwell + 1 - k.cycle % cfg.frame) + 1 }) := by
  have : untilCommandCycle cfg k.cycle = some (6 * cfg.dwell + 1 - k.cycle % cfg.frame) := by
    unfold untilCommandCycle; rw [if_neg (by omega)]
  simp only [Line.expand, hw, this]

end Sys2Proof.Machine
end

