-- ==== Sys2Proof/Tests/Slice0.lean ====
section
/-! SUPPORT. Tests. The expected results are the spec's: the encodings of 30_encoding.md and the vectors of
95_test_vectors.md named at each test. A `test_` theorem checks one word or one step; a `witness_` theorem shows
that the hypotheses of the obligation it names can be met together. -/

namespace Sys2Proof.Tests

open Sys2Proof.Machine

/-- The state an outcome answers, if it answers one. -/
def answer {α : Type} (o : Host.Outcome α Fault Refusal) : Option α :=
  match o with
  | .next t => some t
  | .fault _ => none
  | .refused _ => none

/-- What an outcome refuses with, if it refuses. -/
def refusal {α : Type} (o : Host.Outcome α Fault Refusal) : Option Refusal :=
  match o with
  | .next _ => none
  | .fault _ => none
  | .refused r => some r

/-- The state `k` cycles after `s`; `s` itself where the run ends sooner. -/
def runFor (k : Nat) (s : State) : State := (answer (Host.Core.run Sys2Proof.core k s)).getD s

theorem after_runFor {k : Nat} {s : State} (h : (answer (Host.Core.run Sys2Proof.core k s)).isSome = true) :
    After k s (runFor k s) := by
  unfold After runFor
  cases hr : Host.Core.run Sys2Proof.core k s with
  | next t => rfl
  | fault r => exact nomatch r
  | refused r => rw [hr] at h; cases h

theorem step_runFor {s : State} (h : (answer (step s)).isSome = true) : step s = .next (runFor 1 s) := by
  cases hs : step s with
  | next t =>
    have : After 1 s t := (after_succ hs).2 (after_zero.2 rfl)
    have e : runFor 1 s = t := by unfold runFor; rw [this]; rfl
    rw [e]
  | fault r => exact nomatch r
  | refused r => rw [hs] at h; cases h

/-- A time value. -/
def hms (h m s : Nat) : TimeValue := ⟨BitVec.ofNat 5 h, BitVec.ofNat 6 m, BitVec.ofNat 6 s⟩

/-- The reset state in a command cycle of the update window (`dcnt = 1`), with a time value, a Mode and a command. -/
def inCommandCycle (t : TimeValue) (dir : Bool) (cmd : CmdWord) : State :=
  { State.reset with time := t, dir, slot := 6#3, dcnt := 1, ports := { Ports.idle with cmd } }

/-- The same in the consume cycle, with a pending tick. -/
def inConsumeCycle (t : TimeValue) (dir : Bool) (cmd : CmdWord) : State :=
  { inCommandCycle t dir cmd with dcnt := 0, pend := true }

/-- The time value and the Mode after one step. -/
def timeAndMode (s : State) : Option (TimeValue × Bool) := (answer (step s)).map fun t => (t.time, t.dir)

/-- `run`, `pend` and `tcnt` after one step. -/
def tickPart (s : State) : Option (Bool × Bool × Nat) := (answer (step s)).map fun t => (t.run, t.pend, t.tcnt)

/-- Flops with an active falling edge in this cycle. -/
def falling : Synchroniser := ⟨false, false, true⟩

/-- Flops with an active rising edge in this cycle. -/
def rising : Synchroniser := ⟨true, true, false⟩

/-! ### Encodings (30_encoding.md R75 to R78) -/

theorem test_decode_nop : decode (.cmd 0b0000#4) = .ok .nop := by decide
theorem test_decode_inc_s : decode (.cmd 0b0001#4) = .ok .incS := by decide
theorem test_decode_dec_s : decode (.cmd 0b0010#4) = .ok .decS := by decide
theorem test_decode_inc_m : decode (.cmd 0b0011#4) = .ok .incM := by decide
theorem test_decode_dec_m : decode (.cmd 0b0100#4) = .ok .decM := by decide
theorem test_decode_inc_h : decode (.cmd 0b0101#4) = .ok .incH := by decide
theorem test_decode_dec_h : decode (.cmd 0b0110#4) = .ok .decH := by decide
theorem test_decode_tgl : decode (.cmd 0b0111#4) = .ok .tgl := by decide
theorem test_decode_reserved :
    decode (.cmd 0b1000#4) = .ok (.reserved 0b1000#4) ∧ decode (.cmd 0b1111#4) = .ok (.reserved 0b1111#4) := by
  decide
theorem test_decode_ext_reset : decode (.evt 0b00001#5) = .ok .extReset := by decide
theorem test_decode_ext_pause : decode (.evt 0b00010#5) = .ok .extPause := by decide
theorem test_decode_ext_resume : decode (.evt 0b00100#5) = .ok .extResume := by decide
theorem test_decode_tick_wrap : decode (.evt 0b01000#5) = .ok .tickWrap := by decide
theorem test_decode_tick_apply : decode (.evt 0b10000#5) = .ok .tickApply := by decide

/-- R76: no event and several events are not one operation. -/
theorem test_decode_event_words :
    decode (.evt 0b00000#5) = .error .noEvent ∧ decode (.evt 0b10001#5) = .error .severalEvents ∧
      decodeEvents 0b11111#5 = [.tickApply, .tickWrap, .extReset, .extPause, .extResume] := by decide

theorem test_table_words :
    decodeTableWord 4 1 = some .incS ∧ decodeTableWord 8 1 = some .incS ∧ decodeTableWord 5 1 = some .extReset ∧
      decodeTableWord 8 16 = some .tickApply ∧ decodeTableWord 4 16 = none ∧ decodeTableWord 8 32 = none := by decide

/-! ### Well-formedness (30_encoding.md R78) -/

theorem test_wellFormed_refuses_defined_code :
    Instr.wellFormed (.reserved 0b0011#4) = false ∧ Instr.wellFormed (.reserved 0b0111#4) = false ∧
      Instr.wellFormed (.reserved 0b1000#4) = true := by decide

/-! ### Commands (95_test_vectors.md section 2.2) -/

theorem test_nop : timeAndMode (inCommandCycle (hms 12 34 56) false 0b0000#4) = some (hms 12 34 56, false) := by decide
theorem test_inc_s_carries : timeAndMode (inCommandCycle (hms 0 0 59) false 0b0001#4) = some (hms 0 1 0, false) := by
  decide
theorem test_inc_s_ignored_in_render_slot :
    timeAndMode { inCommandCycle (hms 0 0 0) false 0b0001#4 with slot := 5#3 } = some (hms 0 0 0, false) := by decide
theorem test_dec_s_borrows : timeAndMode (inCommandCycle (hms 0 10 0) true 0b0010#4) = some (hms 0 9 59, true) := by
  decide
theorem test_dec_s_after_tick : timeAndMode (inConsumeCycle (hms 0 0 10) false 0b0010#4) = some (hms 0 0 10, false) := by
  decide
theorem test_inc_m_rolls_over : timeAndMode (inCommandCycle (hms 23 59 30) false 0b0011#4) = some (hms 0 0 0, false) := by
  decide
theorem test_dec_m_borrows : timeAndMode (inCommandCycle (hms 1 0 30) false 0b0100#4) = some (hms 0 59 30, false) := by
  decide
theorem test_inc_h_clamps : timeAndMode (inCommandCycle (hms 23 10 10) false 0b0101#4) = some (hms 23 10 10, false) := by
  decide
theorem test_dec_h : timeAndMode (inCommandCycle (hms 5 0 0) true 0b0110#4) = some (hms 4 0 0, true) := by decide
theorem test_tgl : timeAndMode (inCommandCycle (hms 7 7 7) false 0b0111#4) = some (hms 7 7 7, true) := by decide
theorem test_tgl_after_tick : timeAndMode (inConsumeCycle (hms 0 0 0) false 0b0111#4) = some (hms 0 0 1, true) := by decide
theorem test_reserved_changes_nothing :
    timeAndMode (inCommandCycle (hms 7 7 7) true 0b1010#4) = some (hms 7 7 7, true) := by decide
theorem test_reserved_run_refused :
    refusal (watchedStep ⟨false, false⟩ ⟨true, 0⟩ (inCommandCycle (hms 7 7 7) true 0b1010#4)) =
      some (.hostContract .noReservedCode) := by decide

/-! ### Events (95_test_vectors.md sections 2.3, 2.4 and 2.6) -/

theorem test_wrap : tickPart { State.reset with tcnt := 49 } = some (true, true, 0) := by decide
theorem test_no_wrap_while_stopped :
    tickPart { State.reset with run := false, tcnt := 49 } = some (false, false, 49) := by decide
theorem test_tick_done : tickPart (inConsumeCycle (hms 0 0 0) false 0#4) = some (true, false, 1) := by decide
theorem test_tick_apply_and_wrap :
    tickPart { inConsumeCycle (hms 0 0 0) false 0#4 with tcnt := 49 } = some (true, true, 0) := by decide
theorem test_reset_edge_while_stopped :
    tickPart { State.reset with run := false, tcnt := 30, syncRst := falling } = some (false, false, 0) := by decide
theorem test_reset_edge_suppresses_tick :
    (outputs { State.reset with tcnt := 49, syncRst := falling }).tickOut = false ∧
      tickPart { State.reset with tcnt := 49, syncRst := falling } = some (true, false, 0) := by decide
theorem test_pause_edge :
    tickPart { State.reset with tcnt := 7, syncPse := rising } = some (false, false, 8) ∧
      (outputs { State.reset with tcnt := 7, syncPse := rising }).pauseEvt = true := by decide
theorem test_resume_wins :
    tickPart { State.reset with syncPse := rising, syncRsm := falling } = some (true, false, 1) := by decide
/-- X1. -/
theorem test_collision_reset_tick_command :
    timeAndMode { inConsumeCycle (hms 0 0 1) false 0b0011#4 with syncRst := falling } = some (hms 0 0 0, false) ∧
      tickPart { inConsumeCycle (hms 0 0 1) false 0b0011#4 with syncRst := falling } = some (true, false, 0) := by decide
/-- X2. -/
theorem test_collision_reset_toggle :
    timeAndMode { inCommandCycle (hms 9 9 9) false 0b0111#4 with syncRst := falling } = some (hms 0 0 0, true) := by
  decide

/-! ### The display (95_test_vectors.md section 2.5) -/

/-- D2, D6 and D7. -/
theorem test_sequencer_and_bus :
    ((answer (step { State.reset with time := hms 0 0 37, dcnt := 1 })).map fun t => (t.slot, t.dcnt, t.busR)) =
        some (1#3, 0, 3#4) ∧
      ((answer (step { State.reset with slot := 5#3, dcnt := 1, busR := 2#4 })).map fun t => (t.slot, t.dcnt, t.busR)) =
        some (6#3, 0, 2#4) ∧
      ((answer (step { inCommandCycle (hms 0 0 37) false 1#4 with dcnt := 7 })).map fun t => (t.slot, t.dcnt, t.busR)) =
        some (0#3, 0, 8#4) := by decide
/-- D1 and D4. -/
theorem test_digits :
    [Position.secOnes, .secTens, .minOnes, .minTens, .hrOnes, .hrTens].map (digit · (hms 12 34 56)) =
        [6#4, 5#4, 4#4, 3#4, 2#4, 1#4] ∧
      [Position.secOnes, .secTens, .minOnes, .minTens, .hrOnes, .hrTens].map (digit · (hms 23 59 59)) =
        [9#4, 5#4, 9#4, 5#4, 3#4, 2#4] := by decide
/-- The frame map of section 0 and D9; the word is that of 30_encoding.md R81. -/
theorem test_display_word :
    (outputs { State.reset with slot := 2#3, busR := 7#4 }).display = 0b0001000111#10 ∧
      (outputs { State.reset with ports := { Ports.idle with por := true } }).display = 0#10 := by decide

/-! ### Reset and the first instruction -/

/-- 70_reset_and_hazards.md R260: whatever the state is, the flops take the pins' levels. -/
theorem test_por :
    answer (step { inConsumeCycle (hms 31 63 63) true 9#4 with
      run := false, tcnt := 99, busR := 15#4, ports := ⟨true, false, true, false, 9#4⟩ }) =
        some { State.reset with
          syncRst := ⟨false, false, false⟩, syncPse := ⟨true, true, true⟩, syncRsm := ⟨false, false, false⟩
          ports := ⟨false, false, true, false, 0#4⟩ } := by decide
theorem test_first_command : timeAndMode (State.reset.withFetchWord 8 0b0101) = some (hms 1 0 0, false) := by decide
theorem test_first_event :
    eventWord (State.reset.withFetchWord 5 0b00110) = 0b00110#5 ∧
      timeAndMode (State.reset.withFetchWord 8 0b10000) = some (hms 0 0 1, false) := by decide

/-! ### Refusals (10_state.md R24, 70_reset_and_hazards.md R265) -/

theorem test_bad_configuration :
    refusal (step { State.reset with cfg := { Config.testing with fClk := 20 } }) = some .badConfiguration ∧
      (answer (step { State.reset with cfg := { Config.testing with fClk := 21 } })).isSome = true := by decide
theorem test_invalid_time :
    refusal (step { State.reset with time := hms 24 0 0 }) = some .timeOutOfRange ∧
      refusal (step { State.reset with slot := 7#3 }) = some .registerOutOfRange := by decide

/-! ### Scripts and the controller (95_test_vectors.md programs P2 and P5, vectors H1 to H10) -/

/-- P2: TGL in cycle 13, two INC_S in cycles 14 and 15. -/
theorem test_script_p2 :
    ((expand Config.testing (Cursor.start 0) (down false ++ setS 2)).map fun v => v.map Ports.cmd) =
      some (List.replicate 13 0#4 ++ [7#4, 1#4, 1#4]) := by decide
/-- P5, from cycle 110: the pin falls, INC_M stands in the consume cycle. -/
theorem test_script_p5 :
    ((expand Config.testing { Cursor.start 110 with cycle := 110 }
        [.pin .rst false, .cmdAt0 .incM, .cmd .incS, .cmd .tgl, .pin .rst true]).map
      fun v => v.map fun p => (p.pinRst, p.cmd)) =
      some [(false, 0#4), (false, 0#4), (false, 3#4), (false, 1#4), (false, 7#4)] := by decide

/-- All lines high: no button pressed. -/
def released : HostLines := ⟨⟨true, true, true, true, true, true, true⟩, true⟩

/-- The seconds+ button pressed. -/
def pressedSecondsUp : HostLines := { released with buttons := { released.buttons with secondsUp := false } }

/-- V6. -/
theorem test_button_acts_once :
    pollActions pressedSecondsUp Controller.initial.armed = [.secondsUp] ∧
      pollActions pressedSecondsUp (pollArmed pressedSecondsUp Controller.initial.armed) = [] ∧
      pollActions pressedSecondsUp (pollArmed released (pollArmed pressedSecondsUp Controller.initial.armed)) =
        [.secondsUp] := by decide
/-- H2. -/
theorem test_issue_order :
    (pollActions ⟨⟨false, false, false, false, false, false, false⟩, true⟩ Controller.initial.armed).map Button.command =
      [.incH, .decH, .incM, .decM, .incS, .decS, .tgl] := by decide
/-- H5 to H8. -/
theorem test_buzzer_on :
    buzzerOnAfter false false (hms 0 0 1) (hms 0 0 0) = true ∧ buzzerOnAfter false true (hms 0 0 9) (hms 0 0 8) = false ∧
      buzzerOnAfter false true (hms 0 0 0) (hms 0 0 0) = true ∧ buzzerOnAfter true true (hms 0 0 1) (hms 0 0 0) = false := by
  decide
/-- H9 and H10. -/
theorem test_buzz_sources :
    buttonQualifies ⟨.tickAndButtons, .hold⟩ true .secondsDown = true ∧
      buttonQualifies ⟨.tick, .hold⟩ true .secondsDown = false := by decide
/-- H3: the toggle clears the latch, the asserted stop input sets it again at the iteration's end. -/
theorem test_toggle_and_stop :
    let k : BuzzConfig := ⟨.tick, .hold⟩
    let o := outputs (inCommandCycle (hms 0 0 0) true 0#4)
    let c := Controller.issue k { Controller.initial with waiting := [.modeToggle], latch := true } o
    c.2 = 7#4 ∧ c.1.latch = false ∧
      (c.1.endIteration k { released with stopBuzzer := false } (o.dirAfter c.2)).latch = true := by decide

/-- The block and its host in the last cycle of the update window (`dcnt = 7`), in CountDown at 00:00:00. -/
def lastWindowCycle (host : Controller) : System :=
  { block := { inCommandCycle (hms 0 0 0) true 0#4 with dcnt := 7 }, host := { host with windowPos := 7 } }

/-- R170, R181 and P2: the buzzer is driven at the edge that ends the frame, so it stands in the next frame's first
cycle. -/
theorem test_buzzer_driven_in_window :
    ((answer (System.cycle ⟨.tick, .hold⟩ released Ports.idle
        (lastWindowCycle { Controller.initial with buzzerOn := true }))).map
      fun y => (y.block.slot, y.block.dcnt, y.host.buzzer, y.host.latch)) = some (0#3, 0, true, false) := by decide
/-- V9: the asserted stop input sets the latch in the iteration and the buzzer is silent at its end. -/
theorem test_stop_input_in_window :
    ((answer (System.cycle ⟨.tick, .hold⟩ { released with stopBuzzer := false } Ports.idle
        (lastWindowCycle { Controller.initial with buzzerOn := true, buzzer := true }))).map
      fun y => (y.host.buzzerOn, y.host.latch, y.host.buzzer)) = some (true, true, false) := by decide
/-- V10 with the toggle in the last window cycle: under `clear` the iteration ends with `buzzerOn` and the buzzer 0. -/
theorem test_toggle_clears_buzzer :
    ((answer (System.cycle ⟨.tick, .clear⟩ released Ports.idle
        (lastWindowCycle { Controller.initial with buzzerOn := true, latch := true, waiting := [.modeToggle] }))).map
      fun y => (y.block.dir, y.host.latch, y.host.buzzerOn, y.host.buzzer)) = some (false, false, false, false) := by
  decide

/-! ### Witnesses: the hypotheses of each obligation that has some, met together -/

/-- Registers at the upper ends of their ranges: 23:59:59, CountDown, the last cycle of the window, the last of a tick. -/
def topState : State :=
  { State.reset with time := hms 23 59 59, dir := true, slot := 6#3, dcnt := 7, tcnt := 49, busR := 9#4 }

/-- The shortest frame R265 allows, 7 cycles, and the shortest tick period, 8. -/
def shortest : Config := { Config.testing with fClk := 8, dwell := 1, u := 1 }

/-- The POR state under the shortest frame. -/
def shortState : State := { State.reset with cfg := shortest }

theorem reset_legal : Legal State.reset := ⟨by decide, by decide, by decide⟩
theorem top_legal : Legal topState := ⟨by decide, by decide, by decide⟩
theorem short_legal : Legal shortState := ⟨by decide, by decide, by decide⟩
theorem reset_noPor : NoPor State.reset := ⟨rfl, by decide⟩
theorem short_noPor : NoPor shortState := ⟨rfl, by decide⟩

/-- A state between slots, or outside slot 0's first cycle, meets `Inv` where it is legal. -/
theorem inv_of_legal {s : State} (h : Legal s) (hb : ∀ p, Position.ofSlot s.slot = some p → s.dcnt = 0 →
    s.busR = digit p s.time) : Inv s := { toLegal := h, bus := hb }

theorem reset_inv : Inv State.reset := inv_of_legal reset_legal fun p h _ => by
  cases (show Position.ofSlot 0#3 = some p from h).symm.trans (show _ = some Position.secOnes from rfl); decide
theorem short_inv : Inv shortState := inv_of_legal short_legal fun p h _ => by
  cases (show Position.ofSlot 0#3 = some p from h).symm.trans (show _ = some Position.secOnes from rfl); decide
theorem top_inv : Inv topState := inv_of_legal top_legal fun p h _ => by
  cases (show Position.ofSlot 6#3 = some p from h).symm.trans (show _ = none from rfl)

theorem witness_CommandCodesDecode :
    (0b1000#4 : CmdWord).getLsbD 3 = true ∧ (0b1111#4 : CmdWord).getLsbD 3 = true := by decide
theorem witness_DecodeAndEncodeAgree :
    (Instr.reserved 0b1000#4).wellFormed = true ∧ (Instr.reserved 0b1111#4).wellFormed = true ∧
      decode (.evt 0b10000#5) = .ok .tickApply ∧ decode (.cmd 0b1111#4) = .ok (.reserved 0b1111#4) := by decide
theorem witness_WithFetchWordPresentsTheWord : State.reset.cfg.ok = true ∧ shortest.ok = true := by decide
theorem witness_StepRunsTheDecodedCommand :
    let s := inCommandCycle (hms 23 59 59) false 0b0001#4
    Legal s ∧ s.ports.por = false ∧ eventWord s = 0#5 ∧ decode (.cmd s.ports.cmd) = .ok .incS ∧
      exec .incS s = .next (s.setTime (hms 0 0 0)) :=
  ⟨⟨by decide, by decide, by decide⟩, rfl, by decide, rfl, rfl⟩
theorem witness_StepRunsTheDecodedEvent :
    let s := { State.reset with tcnt := 49 }
    Legal s ∧ s.ports.por = false ∧ s.ports.cmd = 0#4 ∧ decode (.evt (eventWord s)) = .ok .tickWrap ∧
      exec .tickWrap s = .next { s with tcnt := 0, pend := true } :=
  ⟨⟨by decide, by decide, by decide⟩, rfl, rfl, rfl, rfl⟩

/-- A legal state without POR, the hypothesis of the obligations about one step of every legal state. -/
theorem witness_StepChainsTheOperationsInOrder : Legal topState ∧ topState.ports.por = false := ⟨top_legal, rfl⟩
theorem witness_StepObeysTheCycleEquations : Legal topState ∧ topState.ports.por = false := ⟨top_legal, rfl⟩
theorem witness_TickCounterCounts : Legal topState ∧ topState.ports.por = false := ⟨top_legal, rfl⟩
theorem witness_PendingTickRule : Legal topState ∧ topState.ports.por = false := ⟨top_legal, rfl⟩
theorem witness_SequencerAdvances : Legal topState ∧ topState.ports.por = false := ⟨top_legal, rfl⟩
theorem witness_HostCannotReachRunPendOrSequencer : Legal topState ∧ topState.ports.por = false := ⟨top_legal, rfl⟩
theorem witness_RegistersFitTheirWidths : Legal topState ∧ Legal shortState := ⟨top_legal, short_legal⟩
theorem witness_SynchronisersShift :
    (Legal topState ∧ topState.ports.por = false) ∧
      Legal { topState with ports := { Ports.idle with por := true } } :=
  ⟨⟨top_legal, rfl⟩, ⟨by decide, by decide, by decide⟩⟩

/-- A valid time value for each case of the six functions. -/
theorem witness_IncrementsCarryAsStated :
    [(23, 58, 58), (22, 59, 59), (23, 59, 59), (22, 58, 59), (0, 0, 0)].all
      (fun x => (hms x.1 x.2.1 x.2.2).legal && decide ((hms x.1 x.2.1 x.2.2).triple = x)) = true := by decide
theorem witness_DecrementsBorrowAsStated :
    [(0, 1, 1), (1, 0, 0), (0, 0, 0), (0, 1, 0), (0, 0, 1)].all
      (fun x => (hms x.1 x.2.1 x.2.2).legal && decide ((hms x.1 x.2.1 x.2.2).triple = x)) = true := by decide
theorem witness_ManualHoursClamp :
    [(23, 0, 0), (22, 0, 0), (0, 0, 0), (1, 0, 0)].all
      (fun x => (hms x.1 x.2.1 x.2.2).legal && decide ((hms x.1 x.2.1 x.2.2).triple = x)) = true := by decide
theorem witness_CounterArithmeticCountsSeconds :
    [hms 23 59 59, hms 23 58 0, hms 22 59 0, hms 0 0 59, hms 0 1 0, hms 0 0 0].all TimeValue.legal = true := by decide
theorem witness_IncrementAndDecrementAreInverse :
    ((hms 23 59 58).legal = true ∧ hms 23 59 58 ≠ ⟨23#5, 59#6, 59#6⟩) ∧
      ((hms 0 0 1).legal = true ∧ hms 0 0 1 ≠ ⟨0#5, 0#6, 0#6⟩) := by decide

/-- Consume cycles whose time value is the number of ticks before them. -/
def consumeAfter (n : Nat) : State := inConsumeCycle (TimeValue.incS^[n] TimeValue.zero) false 0#4

theorem consumeAfter_legal (n : Nat) : (consumeAfter n).time.legal = true := by
  show (TimeValue.incS^[n] TimeValue.zero).legal = true
  induction n with
  | zero => decide
  | succ n ih => rw [Function.iterate_succ_apply']; exact TimeValue.incS_legal _ ih

theorem witness_TicksFromZeroCountSeconds :
    (consumeAfter 0).time = TimeValue.zero ∧ (∀ n, (consumeAfter n).dir = false) ∧
      (∀ n, tickDone (consumeAfter n) = true) ∧
      ∀ n, ∃ t, exec .tickApply (consumeAfter n) = .next t ∧ (consumeAfter (n + 1)).time = t.time := by
  refine ⟨rfl, fun _ => rfl, fun _ => rfl, fun n => ⟨_, exec_of_legal _ (consumeAfter_legal n), ?_⟩⟩
  exact Function.iterate_succ_apply' TimeValue.incS n TimeValue.zero

/-- A valid time value, in the window and out of it. -/
theorem witness_NopChangesNothing : topState.time.legal = true := by decide
theorem witness_IncSecondsCommand :
    topState.time.legal = true ∧ topState.slot = 6#3 ∧ State.reset.time.legal = true ∧ State.reset.slot ≠ 6#3 := by decide
theorem witness_DecSecondsCommand :
    topState.time.legal = true ∧ topState.slot = 6#3 ∧ State.reset.slot ≠ 6#3 ∧ 0#5 < 1#5 := by decide
theorem witness_IncMinutesCommand :
    topState.time.legal = true ∧ topState.slot = 6#3 ∧ State.reset.slot ≠ 6#3 ∧ 22#5 < 23#5 := by decide
theorem witness_DecMinutesCommand :
    topState.time.legal = true ∧ topState.slot = 6#3 ∧ State.reset.slot ≠ 6#3 ∧ 0#5 < 1#5 := by decide
theorem witness_IncHoursCommand :
    topState.time.legal = true ∧ topState.slot = 6#3 ∧ State.reset.slot ≠ 6#3 := by decide
theorem witness_DecHoursCommand :
    topState.time.legal = true ∧ topState.slot = 6#3 ∧ State.reset.slot ≠ 6#3 := by decide
theorem witness_ToggleFlipsTheMode :
    topState.time.legal = true ∧ topState.slot = 6#3 ∧ topState.ports.por = false ∧
      exec .tgl topState = .next { topState with dir := false } ∧
      exec .tgl State.reset = .next State.reset := ⟨by decide, rfl, rfl, rfl, rfl⟩
theorem witness_ReservedCodesChangeNothing :
    topState.time.legal = true ∧
      (let s := inCommandCycle (hms 0 0 0) false 0b1000#4
       (Monitor.mk true 0).powered = true ∧ s.ports.por = false ∧ s.slot = 6#3 ∧ s.ports.cmd.getLsbD 3 = true) := by
  decide
theorem witness_CommandsActOnlyInTheWindow :
    topState.time.legal = true ∧ topState.slot = 6#3 ∧ State.reset.time.legal = true ∧ State.reset.slot ≠ 6#3 := by decide
theorem witness_ResetEdgeZeroesTimeAndTickCounter :
    let s := { topState with syncRst := falling }
    s.time.legal = true ∧ s.syncRst.h = true ∧ s.syncRst.q2 = false := by decide
theorem witness_PauseEdgeStops :
    let s := { topState with syncPse := rising }
    s.time.legal = true ∧ s.ports.por = false ∧ s.syncPse.h = false ∧ s.syncPse.q2 = true := by decide
theorem witness_ResumeEdgeRuns :
    let s := { topState with syncRsm := falling }
    s.time.legal = true ∧ s.syncRsm.h = true ∧ s.syncRsm.q2 = false := by decide
theorem witness_WrapRestartsTheCounterAndRaisesPend :
    topState.time.legal = true ∧ topState.ports.por = false ∧ topState.run = true ∧
      topState.tcnt = topState.cfg.fClk - 1 := by decide
theorem witness_TickAppliedByMode :
    let s := inConsumeCycle (hms 23 59 59) false 0#4
    s.time.legal = true ∧ s.ports.por = false ∧ s.slot = 6#3 ∧ s.dcnt = 0 ∧ s.pend = true := by decide

theorem witness_EveryStepKeepsTheInvariants : Inv topState ∧ step topState = .next (runFor 1 topState) :=
  ⟨top_inv, step_runFor (by decide)⟩
theorem witness_PorStepGivesThePorState :
    let s := { topState with time := hms 31 63 63, ports := { Ports.idle with por := true } }
    s.cfg.ok = true ∧ s.ports.por = true := by decide
theorem witness_OutputsDuringPorAreConstant :
    ({ topState with ports := { Ports.idle with por := true } } : State).ports.por = true := by decide
theorem witness_OutputsShowTheState :
    topState.ports.por = false ∧ Ports.idle.por = false ∧ (Ports.mk false false true false 15#4).por = false := by decide
theorem witness_AtMostOneDigitEnabled :
    (topState.slot = 6#3 ∧ topState.slot ≤ 6#3 ∧ topState.ports.por = false) ∧
      (let s := { State.reset with slot := 5#3 }
       s.slot ≤ 6#3 ∧ s.slot ≠ 6#3 ∧ s.ports.por = false ∧ (outputs s).en.getLsbD 5 = true) ∧
      ({ topState with ports := { Ports.idle with por := true } } : State).ports.por = true := by decide
theorem witness_DigitsAreDecimal : (hms 23 59 59).legal = true ∧ (hms 0 0 0).legal = true := by decide
theorem witness_BusLoadedAtSlotStart :
    (Legal topState ∧ topState.ports.por = false ∧ topState.dcnt = topState.cfg.u - 1 ∧
      Position.ofSlot (runFor 1 topState).slot = some .secOnes) ∧
      (Legal State.reset ∧ State.reset.dcnt ≠ State.reset.cfg.dwell - 1) ∧
      (let s := { State.reset with slot := 5#3, dcnt := 1 }
       Legal s ∧ s.dcnt = s.cfg.dwell - 1 ∧ (runFor 1 s).slot = 6#3) :=
  ⟨⟨top_legal, by decide, by decide, by decide⟩, ⟨reset_legal, by decide⟩,
    ⟨⟨by decide, by decide, by decide⟩, by decide, by decide⟩⟩
theorem witness_SameCycleEffectsCombineInOrder :
    (let s := { topState with syncRst := falling, ports := { Ports.idle with cmd := 7#4 } }
     Legal s ∧ s.ports.por = false ∧ rstEdge s = true ∧ s.slot = 6#3 ∧ s.ports.cmd = 7#4) ∧
      (rstEdge topState = false ∧ (outputs topState).tickOut = true ∧ topState.ports.cmd ≠ 7#4) ∧
      (let s := { inConsumeCycle (hms 0 0 0) false 0#4 with syncPse := rising, syncRsm := falling }
       Legal s ∧ s.ports.por = false ∧ rsmEdge s = true ∧ (outputs s).tickOut = false ∧ consume s = true) ∧
      (let s := { topState with syncPse := rising }
       Legal s ∧ rsmEdge s = false ∧ pseEdge s = true) :=
  ⟨⟨⟨by decide, by decide, by decide⟩, by decide, by decide, rfl, rfl⟩, by decide,
    ⟨⟨by decide, by decide, by decide⟩, by decide, by decide, by decide, by decide⟩,
    ⟨⟨by decide, by decide, by decide⟩, by decide, by decide⟩⟩
theorem witness_TimeChangesOnlyInWindowOrAtReset :
    let s := inCommandCycle (hms 23 59 59) false 1#4
    s.ports.por = false ∧ step s = .next (runFor 1 s) ∧ (runFor 1 s).time ≠ s.time :=
  ⟨rfl, step_runFor (by decide), by decide⟩
theorem witness_ModeChangesOnlyByToggle :
    let s := inCommandCycle (hms 23 59 59) false 7#4
    s.ports.por = false ∧ step s = .next (runFor 1 s) ∧ (runFor 1 s).dir ≠ s.dir :=
  ⟨rfl, step_runFor (by decide), by decide⟩
theorem witness_RunChangesOnlyByPauseAndResume :
    (let s := { State.reset with syncPse := rising }
     s.ports.por = false ∧ step s = .next (runFor 1 s) ∧ (runFor 1 s).run ≠ s.run) ∧
      (let s := { State.reset with run := false, syncRsm := falling }
       s.ports.por = false ∧ step s = .next (runFor 1 s) ∧ (runFor 1 s).run ≠ s.run) :=
  ⟨⟨rfl, step_runFor (by decide), by decide⟩, ⟨rfl, step_runFor (by decide), by decide⟩⟩
theorem witness_UnreachableRegisterValuesAreRefused :
    (let s := { State.reset with time := hms 24 0 0 }
     s.time.legal = false ∧ s.cfg.ok = true ∧ s.ports.por = false ∧ registersLegal s = true) ∧
      (let s := { State.reset with slot := 7#3 }
       s.cfg.ok = true ∧ s.ports.por = false ∧ registersLegal s = false) := by decide

/-- Each pin's level has just changed. -/
def pinsChange : State := { State.reset with ports := ⟨false, false, true, false, 0#4⟩ }

theorem witness_PinEdgeActsThreeCyclesLater :
    Legal pinsChange ∧ NoPor pinsChange ∧ pinsChange.syncRst = ⟨true, true, true⟩ ∧ pinsChange.ports.pinRst = false ∧
      pinsChange.syncPse = ⟨false, false, false⟩ ∧ pinsChange.ports.pinPse = true ∧
      pinsChange.syncRsm = ⟨true, true, true⟩ ∧ pinsChange.ports.pinRsm = false :=
  ⟨⟨by decide, by decide, by decide⟩, ⟨rfl, by decide⟩, rfl, rfl, rfl, rfl, rfl, rfl⟩
theorem witness_DisplayHoldsTheSlotDigit :
    Inv State.reset ∧ NoPor State.reset ∧ State.reset.dcnt = 0 ∧ Position.ofSlot State.reset.slot = some .secOnes ∧
      1 < State.reset.cfg.dwell := ⟨reset_inv, reset_noPor, rfl, rfl, by decide⟩
theorem witness_FrameLawFromPor :
    let s := { shortState with ports := { Ports.idle with por := true }, script := [Ports.idle] }
    s.cfg.ok = true ∧ s.ports.por = true ∧ ∀ p ∈ s.script, p.por = false := by decide
theorem witness_OneTickPerPeriod :
    Legal shortState ∧ NoPor shortState ∧
      holdsFor (fun t => t.run && !rstEdge t) shortState.cfg.tickDiv shortState = true :=
  ⟨short_legal, short_noPor, by decide⟩
theorem witness_TicksNeverCoalesce :
    Legal shortState ∧ NoPor shortState ∧ 7 < 15 ∧ After 7 shortState (runFor 7 shortState) ∧
      After 15 shortState (runFor 15 shortState) ∧ (outputs (runFor 7 shortState)).tickOut = true ∧
      (outputs (runFor 15 shortState)).tickOut = true :=
  ⟨short_legal, short_noPor, by decide, after_runFor (by decide), after_runFor (by decide), by decide, by decide⟩
theorem witness_FrameAppliesTickThenCommands :
    Inv shortState ∧ NoPor shortState ∧ shortState.slot = 0#3 ∧ shortState.dcnt = 0 ∧
      holdsFor (fun t => !rstEdge t && !pseEdge t && !rsmEdge t) shortState.cfg.frame shortState = true ∧
      5 < 6 * shortState.cfg.dwell :=
  ⟨short_inv, short_noPor, rfl, rfl, by decide, by decide⟩
theorem witness_ButtonActsOncePerPress : pressedSecondsUp.pressed .secondsUp = true := by decide
theorem witness_BuzzerFollowsLatch :
    (({ released with stopBuzzer := false } : HostLines).stopBuzzer = false ∧ released.stopBuzzer = true) ∧
      (outputs State.reset).updWin = false ∧ { Controller.initial with windowPos := 6 }.windowPos + 1 < 8 ∧
      (outputs topState).updWin = true ∧ 8 ≤ { Controller.initial with windowPos := 7 }.windowPos + 1 := by decide
theorem witness_BuzzerOnUpdate :
    hms 0 0 1 ≠ TimeValue.zero ∧ hms 0 0 0 = TimeValue.zero := by decide
theorem witness_IncrementFunctionsSetEachField :
    ((hms 0 59 59).hr = 0#5 ∧ 23 ≤ 23) ∧ ((hms 23 0 59).min = 0#6 ∧ 59 ≤ 59) ∧ (hms 23 59 0).sec = 0#6 := by decide

/-- A stopped block in a command cycle of frame 1 (cycle 33 of the test configuration). -/
def stopped : State := { inCommandCycle (hms 0 0 0) false 0#4 with run := false }

theorem witness_ScriptLinesReachTheirValue :
    Legal stopped ∧ 2 ≤ stopped.cfg.u ∧ 33 % stopped.cfg.frame = framePhase stopped ∧ stopped.run = false ∧
      stopped.pend = false ∧ stopped.syncRst = ⟨true, true, true⟩ ∧ stopped.syncPse = ⟨false, false, false⟩ ∧
      stopped.syncRsm = ⟨true, true, true⟩ ∧ stopped.time.hr = 0#5 ∧ stopped.time.min = 0#6 ∧ stopped.time.sec = 0#6 :=
  ⟨⟨by decide, by decide, by decide⟩, by decide, by decide, rfl, rfl, rfl, rfl, rfl, rfl, rfl, rfl⟩

end Sys2Proof.Tests
end

