-- ==== Sys2Proof/Proofs/StateRegisters.lean ====
section
/-! The statements of 10_state.md: who writes the Mode (R25), the widths of `tcnt` and `dcnt` (R20), and the
register values that are given no next state (R24). -/

namespace Sys2Proof.Proofs.StateRegisters

open Sys2Proof.Machine

/-! ### The Mode -/

/-- Of the command codes, TGL's alone flips the Mode. -/
theorem cmdApply_dir (w : CmdWord) (t : TimeValue) (dir : Bool) :
    (cmdApply w t dir).2 = if w = 7#4 then !dir else dir := by
  by_cases hw : w = 7#4
  · subst hw; rfl
  · have hn : w.toNat ≠ 7 := fun h => hw (BitVec.eq_of_toNat_eq h)
    unfold cmdApply
    split
    case h_7 h => exact absurd h hn
    all_goals rw [if_neg hw]

theorem afterCommand_dir (s : State) :
    (afterCommand s).2 = if s.slot = 6#3 ∧ s.ports.cmd = 7#4 then !s.dir else s.dir := by
  by_cases hs : s.slot = 6#3
  · simp [afterCommand, hs, cmdApply_dir]
  · simp [afterCommand, hs]

/-- Only the command writes the Mode: no event and no part of the cycle's close does. -/
theorem step_dir {s t : State} (hpor : s.ports.por = false) (h : step s = .next t) :
    t.dir = (afterCommand s).2 := by
  obtain ⟨-, ⟨hp, -⟩ | ⟨-, -, rfl⟩⟩ := step_next_cases h
  · rw [hpor] at hp; cases hp
  · obtain ⟨-, hclose, -⟩ := closeCycle_fields s (operated s)
    obtain ⟨-, hops, -⟩ := operated_fields s
    rw [hclose, hops]

/-- Settles O44, from the Mode of the next state being that of the command table. -/
theorem modeChangesOnlyByToggle : Obligations.ModeChangesOnlyByToggle := by
  intro s t hpor h
  rw [step_dir hpor h, afterCommand_dir]
  split
  · next htgl => simp [htgl]
  · next hno => simp [hno]

/-! ### The widths of the counters -/

/-- A number below `n` fits the `ceil(log2 n)` bits of 10_state.md R20. -/
theorem lt_two_pow_clog {k n : Nat} (h : k < n) : k < 2 ^ Nat.clog 2 n :=
  h.trans_le (Nat.le_pow_clog Nat.one_lt_two n)

theorem slotLength_le_max (c : Config) (slot : BitVec 3) : c.slotLength slot ≤ max c.dwell (max c.u 2) := by
  unfold Config.slotLength
  split <;> omega

/-- Settles O47: each register is below a bound whose `ceil(log2 …)` its width is. -/
theorem registersFitTheirWidths : Obligations.RegistersFitTheirWidths := by
  intro s h
  obtain ⟨-, hdcnt, htcnt, -⟩ := registersLegal_bounds h.regs
  exact ⟨lt_two_pow_clog htcnt, lt_two_pow_clog (hdcnt.trans_le (slotLength_le_max s.cfg s.slot))⟩

/-! ### The refusals -/

theorem exec_of_not_legal (i : Instr) {s : State} (h : s.time.legal = false) :
    exec i s = .refused .timeOutOfRange := by
  rw [exec_eq_onLegalTime, onLegalTime_of_not_legal _ h]

/-- A refusal stands whatever operations follow. -/
theorem foldl_thenExec_refused (is : List Instr) (r : Refusal) :
    is.foldl thenExec (.refused r) = .refused r := by
  induction is with
  | nil => rfl
  | cons i is ih => exact ih

/-- The first operation of a cycle refuses an invalid time value, and with it the whole list. -/
theorem execAll_of_not_legal {is : List Instr} (hne : is ≠ []) {s : State} (h : s.time.legal = false) :
    execAll is s = .refused .timeOutOfRange := by
  cases is with
  | nil => exact absurd rfl hne
  | cons i is =>
    have hfirst : thenExec (.next s) i = .refused .timeOutOfRange := exec_of_not_legal i h
    rw [execAll, List.foldl_cons, hfirst, foldl_thenExec_refused]

/-- Every cycle has an operation, its command. -/
theorem agenda_ne_nil (s : State) : agenda s ≠ [] := by
  simp [agenda, agendaOf]

theorem runCycle_of_not_legal {s : State} (h : s.time.legal = false) :
    runCycle s = .refused .timeOutOfRange := by
  rw [runCycle, execAll_of_not_legal (agenda_ne_nil s) h]

/-- Without POR a step of an accepted configuration looks at the ranged registers first, then runs the cycle. -/
theorem step_of_no_por {s : State} (hcfg : s.cfg.ok = true) (hpor : s.ports.por = false) :
    step s = if registersLegal s then runCycle s else .refused .registerOutOfRange := by
  cases hregs : registersLegal s <;> simp [step, clockEdge, hcfg, hpor, hregs]

/-- Settles O49: the guard of every operation, the same guard met by the cycle's first operation, and the step's
own check of the ranged registers. -/
theorem unreachableRegisterValuesAreRefused : Obligations.UnreachableRegisterValuesAreRefused := by
  refine ⟨fun i s htime => exec_of_not_legal i htime, fun s hcfg hpor hregs htime => ?_,
    fun s hcfg hpor hregs => ?_⟩
  · rw [step_of_no_por hcfg hpor, if_pos hregs, runCycle_of_not_legal htime]
  · rw [step_of_no_por hcfg hpor, hregs]; rfl

end Sys2Proof.Proofs.StateRegisters
end

section
/-! The statements of 30_encoding.md sections 3 and 4 about the words: codes and operations (R75 to R78), the event
word (R76), what a table word puts before the next step, and the increments SETH, SETM and SETS rest on (R83). -/

namespace Sys2Proof.Proofs.Encoding

open Sys2Proof.Machine

/-! ### Codes and operations -/

theorem decodeCmd_of_isReservedCode (w : CmdWord) (h : isReservedCode w = true) : decodeCmd w = .reserved w :=
  Except.ok.inj (Laws.DecodeEncode.reserved w h)

/-- Settles O1: the eight rows of the code table, and the reserved half of the code space. -/
theorem commandCodesDecode : Obligations.CommandCodesDecode :=
  ⟨rfl, rfl, rfl, rfl, rfl, rfl, rfl, rfl, decodeCmd_of_isReservedCode⟩

/-- Decoding undoes encoding: the laws of the single operations, gathered. -/
theorem decode_encode (i : Instr) (h : i.wellFormed = true) : decode (encode i) = .ok i := by
  cases i with
  | nop => exact Laws.DecodeEncode.nop h
  | incS => exact Laws.DecodeEncode.incS h
  | decS => exact Laws.DecodeEncode.decS h
  | incM => exact Laws.DecodeEncode.incM h
  | decM => exact Laws.DecodeEncode.decM h
  | incH => exact Laws.DecodeEncode.incH h
  | decH => exact Laws.DecodeEncode.decH h
  | tgl => exact Laws.DecodeEncode.tgl h
  | reserved op => exact Laws.DecodeEncode.reserved op h
  | extReset => exact Laws.DecodeEncode.extReset h
  | extPause => exact Laws.DecodeEncode.extPause h
  | extResume => exact Laws.DecodeEncode.extResume h
  | tickWrap => exact Laws.DecodeEncode.tickWrap h
  | tickApply => exact Laws.DecodeEncode.tickApply h

/-- Every command word, reserved or not, is the encoding of the well-formed command it decodes to. -/
theorem encode_decodeCmd : ∀ w : CmdWord, (decodeCmd w).wellFormed = true ∧ encode (decodeCmd w) = .cmd w := by
  decide

/-- An event word that stands for one operation has that event's bit alone. -/
theorem encode_of_decodeEvents_singleton : ∀ (w : EvtWord) (i : Instr), decodeEvents w = [i] →
    i.wellFormed = true ∧ encode i = .evt w := by
  have bits : ∀ w : EvtWord, ∀ i ∈ (decodeEvents w).head?, (decodeEvents w).length = 1 →
      i.wellFormed = true ∧ encode i = .evt w := by decide
  intro w i h
  exact bits w i (by simp [h]) (by simp [h])

theorem decode_evt_ok {w : EvtWord} {i : Instr} (h : decode (.evt w) = .ok i) : decodeEvents w = [i] := by
  simp only [decode] at h
  split at h
  case h_1 => cases h
  case h_2 j hj => rw [hj, Except.ok.inj h]
  case h_3 => cases h

/-- Settles O2: decoding undoes encoding operation by operation, and encoding undoes decoding in each of the two
formats. -/
theorem decodeAndEncodeAgree : Obligations.DecodeAndEncodeAgree := by
  refine ⟨decode_encode, fun w i h => ?_⟩
  cases w with
  | cmd w =>
    obtain rfl : decodeCmd w = i := Except.ok.inj h
    exact encode_decodeCmd w
  | evt w => exact encode_of_decodeEvents_singleton w i (decode_evt_ok h)

/-! ### The event word -/

theorem mem_eventsBeforeCommand (w : EvtWord) (e : Instr) :
    e ∈ eventsBeforeCommand w ↔ e = .tickApply ∧ w.getLsbD 4 = true := by
  simp [eventsBeforeCommand, and_comm]

theorem mem_eventsAfterCommand (w : EvtWord) (e : Instr) :
    e ∈ eventsAfterCommand w ↔
      (e = .tickWrap ∧ w.getLsbD 3 = true) ∨ (e = .extReset ∧ w.getLsbD 0 = true) ∨
      (e = .extPause ∧ w.getLsbD 1 = true) ∨ (e = .extResume ∧ w.getLsbD 2 = true) := by
  simp [eventsAfterCommand, and_comm]

/-- Settles O3: the bits are the conditions the word is put together from, and the two lists of the decoder, before
and after the command, hold an event each for the bits that are 1. -/
theorem eventWordNamesItsEvents : Obligations.EventWordNamesItsEvents := by
  refine ⟨eventWord_bits, fun w e => ?_⟩
  rw [decodeEvents, List.mem_append, mem_eventsBeforeCommand, mem_eventsAfterCommand]
  tauto

/-- An event word is the one whose five bits are the conditions of its events. -/
theorem eventWord_eq {s : State} {w : EvtWord} (hrst : rstEdge s = w.getLsbD 0) (hpse : pseEdge s = w.getLsbD 1)
    (hrsm : rsmEdge s = w.getLsbD 2) (hwrap : wrap s = w.getLsbD 3) (htick : tickDone s = w.getLsbD 4) :
    eventWord s = w := by
  obtain ⟨h0, h1, h2, h3, h4⟩ := eventWord_bits s
  apply BitVec.eq_of_getLsbD_eq
  intro k hk
  have : k = 0 ∨ k = 1 ∨ k = 2 ∨ k = 3 ∨ k = 4 := by omega
  obtain rfl | rfl | rfl | rfl | rfl := this
  · rw [h0, hrst]
  · rw [h1, hpse]
  · rw [h2, hrsm]
  · rw [h3, hwrap]
  · rw [h4, htick]

/-! ### Putting a table word before the next step -/

theorem withFetchWord_cmd (s : State) (w : CmdWord) : s.withFetchWord 4 w.toNat = s.withCommand w := by
  have htable : tableWord 4 w.toNat = .ok (.cmd w) := by simp [tableWord, w.isLt]
  simp only [State.withFetchWord, htable, State.withOpWord]

theorem withFetchWord_evt (s : State) (w : EvtWord) : s.withFetchWord 5 w.toNat = s.withEventWord w := by
  have htable : tableWord 5 w.toNat = .ok (.evt w) := by simp [tableWord, w.isLt]
  simp only [State.withFetchWord, htable, State.withOpWord]

@[simp] theorem fell_withFall (y : Synchroniser) (b : Bool) : (y.withFall b).fell = b := by
  cases b with
  | true => rfl
  | false =>
    rw [Synchroniser.withFall, if_neg Bool.false_ne_true]
    split
    · simp [Synchroniser.fell]
    · next hy => simpa using hy

@[simp] theorem rose_withRise (y : Synchroniser) (b : Bool) : (y.withRise b).rose = b := by
  cases b with
  | true => rfl
  | false =>
    rw [Synchroniser.withRise, if_neg Bool.false_ne_true]
    split
    · simp [Synchroniser.rose]
    · next hy => simpa using hy

/-- Where the tick divider is above 1, a tick counter at 0 is not at its wrap. -/
theorem wrap_withWrap {s : State} (h : 1 < s.cfg.tickDiv) (b : Bool) : wrap (s.withWrap b) = b := by
  cases b with
  | true => simp [State.withWrap, wrap]
  | false =>
    rw [State.withWrap, if_neg Bool.false_ne_true]
    split
    · have hzero : ¬0 = s.cfg.tickDiv - 1 := by omega
      simp [wrap, hzero]
    · next hw => simpa using hw

theorem tickDone_withTickDone (s : State) (b : Bool) : tickDone (s.withTickDone b) = b := by
  cases b with
  | true => rfl
  | false =>
    rw [State.withTickDone, if_neg Bool.false_ne_true]
    split
    · simp [tickDone]
    · next ht => simpa using ht

/-- The consume cycle and its flag are no part of what a wrap is computed from. -/
theorem wrap_withTickDone (s : State) (b : Bool) : wrap (s.withTickDone b) = wrap s := by
  unfold State.withTickDone
  split
  · rfl
  · split <;> rfl

theorem eventWord_withEventWord {s : State} (hcfg : s.cfg.ok = true) (w : EvtWord) :
    eventWord (s.withEventWord w) = w := by
  obtain ⟨hdiv, -⟩ := Config.ok_bounds hcfg
  apply eventWord_eq
  case hrst => exact fell_withFall s.syncRst _
  case hpse => exact rose_withRise s.syncPse _
  case hrsm => exact fell_withFall s.syncRsm _
  case hwrap =>
    calc wrap (s.withEventWord w)
        = wrap ((s.withWrap (w.getLsbD 3)).withTickDone (w.getLsbD 4)) := rfl
      _ = wrap (s.withWrap (w.getLsbD 3)) := wrap_withTickDone _ _
      _ = w.getLsbD 3 := wrap_withWrap (by omega) _
  case htick => exact tickDone_withTickDone (s.withWrap (w.getLsbD 3)) _

/-- Settles O4: a 4-bit word becomes a command of the window, a 5-bit word sets each event's condition to its bit. -/
theorem withFetchWordPresentsTheWord : Obligations.WithFetchWordPresentsTheWord := by
  refine ⟨fun s w => ?_, fun s w hcfg => ?_⟩
  · rw [withFetchWord_cmd]
    exact ⟨rfl, rfl, rfl⟩
  · rw [withFetchWord_evt]
    exact ⟨eventWord_withEventWord hcfg w, rfl, rfl⟩

/-! ### Counting a field up from 0 -/

theorem incH_at {n : Nat} (t : TimeValue) (h : n < 23) :
    TimeValue.incH { t with hr := BitVec.ofNat 5 n } = { t with hr := BitVec.ofNat 5 (n + 1) } := by
  have hlt : BitVec.ofNat 5 n < 23#5 := by simp only [BitVec.lt_def, BitVec.toNat_ofNat]; omega
  rw [TimeValue.incH, if_pos hlt, BitVec.ofNat_add]

theorem incM_at {n : Nat} (t : TimeValue) (h : n < 59) :
    TimeValue.incM { t with min := BitVec.ofNat 6 n } = { t with min := BitVec.ofNat 6 (n + 1) } := by
  have hlt : BitVec.ofNat 6 n < 59#6 := by simp only [BitVec.lt_def, BitVec.toNat_ofNat]; omega
  rw [TimeValue.incM, if_pos hlt, BitVec.ofNat_add]

theorem incS_at {n : Nat} (t : TimeValue) (h : n < 59) :
    TimeValue.incS { t with sec := BitVec.ofNat 6 n } = { t with sec := BitVec.ofNat 6 (n + 1) } := by
  have hlt : BitVec.ofNat 6 n < 59#6 := by simp only [BitVec.lt_def, BitVec.toNat_ofNat]; omega
  rw [TimeValue.incS, if_pos hlt, BitVec.ofNat_add]

/-- A function that leads from each of the time values `g 0`, ..., `g top` to the next one counts along them. -/
theorem iterate_counts {f : TimeValue → TimeValue} {g : Nat → TimeValue} {top : Nat}
    (hstep : ∀ k, k < top → f (g k) = g (k + 1)) (n : Nat) (hn : n ≤ top) : f^[n] (g 0) = g n := by
  induction n with
  | zero => rfl
  | succ n ih => rw [Function.iterate_succ_apply', ih (by omega), hstep n hn]

theorem iterate_incH {t : TimeValue} {n : Nat} (hhr : t.hr = 0#5) (hn : n ≤ 23) :
    TimeValue.incH^[n] t = { t with hr := BitVec.ofNat 5 n } := by
  have h := iterate_counts (g := fun k => { t with hr := BitVec.ofNat 5 k }) (fun _ => incH_at t) n hn
  rwa [← hhr] at h

theorem iterate_incM {t : TimeValue} {n : Nat} (hmin : t.min = 0#6) (hn : n ≤ 59) :
    TimeValue.incM^[n] t = { t with min := BitVec.ofNat 6 n } := by
  have h := iterate_counts (g := fun k => { t with min := BitVec.ofNat 6 k }) (fun _ => incM_at t) n hn
  rwa [← hmin] at h

theorem iterate_incS {t : TimeValue} {n : Nat} (hsec : t.sec = 0#6) (hn : n ≤ 59) :
    TimeValue.incS^[n] t = { t with sec := BitVec.ofNat 6 n } := by
  have h := iterate_counts (g := fun k => { t with sec := BitVec.ofNat 6 k }) (fun _ => incS_at t) n hn
  rwa [← hsec] at h

/-- Settles O59: below the field's top an increment leads from `n` to `n + 1` and carries nowhere. -/
theorem incrementFunctionsSetEachField : Obligations.IncrementFunctionsSetEachField :=
  ⟨fun _ _ => iterate_incH, fun _ _ => iterate_incM, fun _ _ => iterate_incS⟩

end Sys2Proof.Proofs.Encoding
end

section
/-! The statement of 30_encoding.md section 4 about scripts (R82, R83): the lines SETH, SETM, SETS, DOWN and UP expand
to are run cycle by cycle from a stopped block with quiet pins, where only the commands act. -/

namespace Sys2Proof.Proofs.Scripts

open Sys2Proof.Machine

/-! ### One cycle keeps the registers legal -/

theorem slotLength_eq (c : Config) (slot : BitVec 3) :
    c.slotLength slot = if slot.toNat < 6 then c.dwell else c.u := by
  simp [Config.slotLength, BitVec.lt_def]

theorem slotLength_pos {c : Config} (h : c.ok = true) (slot : BitVec 3) : 0 < c.slotLength slot := by
  obtain ⟨-, -, hdwell, hu⟩ := Config.ok_bounds h
  unfold Config.slotLength
  split <;> omega

theorem nextSlot_toNat (s : State) :
    (nextSlot s).toNat = if lastOfSlot s then (s.slot.toNat + 1) % 7 else s.slot.toNat := by
  unfold nextSlot
  split
  · rw [BitVec.toNat_ofNat]; omega
  · rfl

/-- The sequencer stays in its ranges. -/
theorem next_sequencer_legal {s : State} (h : Legal s) :
    (nextSlot s).toNat ≤ 6 ∧ nextDcnt s < s.cfg.slotLength (nextSlot s) := by
  obtain ⟨hslot, hdcnt, -, -⟩ := registersLegal_bounds h.regs
  have hpos := slotLength_pos h.cfg (nextSlot s)
  rw [nextSlot_toNat, nextDcnt]
  by_cases hlast : lastOfSlot s = true
  · rw [if_pos hlast, if_pos hlast]
    exact ⟨by omega, hpos⟩
  · have hne : s.dcnt ≠ s.cfg.slotLength s.slot - 1 := by simpa [lastOfSlot] using hlast
    rw [if_neg hlast, if_neg hlast, nextSlot, if_neg hlast]
    exact ⟨hslot, by omega⟩

/-- The tick counter of the next state stays below its divider. -/
theorem closeCycle_tcnt_lt {s : State} (h : Legal s) : (closeCycle s (operated s)).tcnt < s.cfg.tickDiv := by
  obtain ⟨-, -, htcnt, -⟩ := registersLegal_bounds h.regs
  obtain ⟨-, -, -, -, -, -, hclose, -⟩ := closeCycle_fields s (operated s)
  obtain ⟨-, -, -, -, hops⟩ := operated_fields s
  rw [hclose, hops]
  split
  · next hcount =>
    simp only [Bool.and_eq_true, Bool.not_eq_true'] at hcount
    obtain ⟨⟨hrun, hwrap⟩, -⟩ := hcount
    have hne : s.tcnt ≠ s.cfg.tickDiv - 1 := by simpa [wrap, hrun] using hwrap
    omega
  · split
    · omega
    · split <;> omega

/-- The bus register of the next state holds a decimal digit. -/
theorem closeCycle_busR_le {s : State} (h : Legal s) : (closeCycle s (operated s)).busR ≤ 9#4 := by
  obtain ⟨-, -, -, hbus⟩ := registersLegal_bounds h.regs
  obtain ⟨-, -, -, -, -, -, -, hclose, -⟩ := closeCycle_fields s (operated s)
  have hkept : (operated s).busR ≤ 9#4 := by rwa [(operated_sameFrame s).busR]
  rw [hclose]
  split
  · split
    · exact digit_le_nine _ _
    · exact hkept
  · exact hkept

theorem closeCycle_cfg (s : State) : (closeCycle s (operated s)).cfg = s.cfg := by
  obtain ⟨-, -, -, -, -, -, -, -, -, -, -, hcfg⟩ := closeCycle_fields s (operated s)
  rw [hcfg, (operated_sameFrame s).cfg]

/-- The state after a cycle of a legal state is legal. -/
theorem closeCycle_legal {s : State} (h : Legal s) : Legal (closeCycle s (operated s)) := by
  obtain ⟨htime, -, -, -, hslot, hdcnt, -⟩ := closeCycle_fields s (operated s)
  obtain ⟨hslot_le, hdcnt_lt⟩ := next_sequencer_legal h
  refine ⟨?_, ?_, ?_⟩
  · rw [closeCycle_cfg]; exact h.cfg
  · rw [htime]; exact operated_time_legal h.time
  · simp only [registersLegal, Bool.and_eq_true, decide_eq_true_eq, closeCycle_cfg, hslot, hdcnt]
    exact ⟨⟨⟨by simpa [BitVec.le_def] using hslot_le, hdcnt_lt⟩, closeCycle_tcnt_lt h⟩, closeCycle_busR_le h⟩

/-! ### The place in the frame -/

/-- The update window is the end of the frame, after its six render slots. -/
theorem slot_eq_six_iff {s : State} (h : Legal s) : s.slot = 6#3 ↔ 6 * s.cfg.dwell ≤ framePhase s := by
  obtain ⟨hslot, hdcnt, -, -⟩ := registersLegal_bounds h.regs
  rw [slotLength_eq] at hdcnt
  unfold framePhase
  constructor
  · intro h6
    simp [h6]
  · intro hphase
    by_contra hne
    have hlt : s.slot.toNat < 6 := lt_of_le_of_ne hslot fun heq => hne (BitVec.eq_of_toNat_eq heq)
    rw [if_pos hlt] at hdcnt
    have hmul : (s.slot.toNat + 1) * s.cfg.dwell ≤ 6 * s.cfg.dwell := Nat.mul_le_mul_right _ hlt
    rw [Nat.succ_mul] at hmul
    omega

/-- Each cycle moves one place on in the frame, and the last one back to its start. -/
theorem framePhase_next {s t : State} (h : Legal s) (hslot : t.slot = nextSlot s) (hdcnt : t.dcnt = nextDcnt s)
    (hcfg : t.cfg = s.cfg) : framePhase t = (framePhase s + 1) % s.cfg.frame := by
  obtain ⟨hslot_le, hdcnt_lt, -, -⟩ := registersLegal_bounds h.regs
  obtain ⟨-, -, -, hu⟩ := Config.ok_bounds h.cfg
  have hframe : s.cfg.frame = 6 * s.cfg.dwell + s.cfg.u := rfl
  rw [framePhase, framePhase, hslot, hdcnt, hcfg, nextSlot_toNat, nextDcnt]
  simp only [lastOfSlot, decide_eq_true_eq]
  rw [slotLength_eq] at hdcnt_lt ⊢
  by_cases hrender : s.slot.toNat < 6
  · rw [if_pos hrender] at hdcnt_lt ⊢
    have hmul : (s.slot.toNat + 1) * s.cfg.dwell ≤ 6 * s.cfg.dwell := Nat.mul_le_mul_right _ hrender
    rw [Nat.succ_mul] at hmul
    have hmod : (s.slot.toNat * s.cfg.dwell + s.dcnt + 1) % s.cfg.frame = s.slot.toNat * s.cfg.dwell + s.dcnt + 1 :=
      Nat.mod_eq_of_lt (by omega)
    rw [hmod]
    split
    · rw [Nat.mod_eq_of_lt (by omega), Nat.succ_mul]; omega
    · omega
  · have h6 : s.slot.toNat = 6 := by omega
    rw [if_neg hrender] at hdcnt_lt ⊢
    rw [h6]
    split
    · next hlast =>
      have hend : 6 * s.cfg.dwell + s.dcnt + 1 = s.cfg.frame := by omega
      rw [hend, Nat.mod_self]
      simp
    · rw [Nat.mod_eq_of_lt (by omega)]; omega

/-! ### A stopped block with quiet pins -/

/-- The block in cycle `c`, where only the command on the port can change the time value or the Mode: Stopped, no tick
pending, the flops of the pins at their idle levels. -/
structure Quiet (c : Nat) (s : State) : Prop where
  legal : Legal s
  phase : c % s.cfg.frame = framePhase s
  run : s.run = false
  pend : s.pend = false
  syncRst : s.syncRst = Synchroniser.hold true
  syncPse : s.syncPse = Synchroniser.hold false
  syncRsm : s.syncRsm = Synchroniser.hold true

/-- The inputs of a cycle in which the pins are idle and a command is presented. -/
def quietPorts (w : CmdWord) : Ports := { Ports.idle with cmd := w }

/-- No register of a quiet block is the script's. -/
theorem Quiet.withScript {c : Nat} {s : State} (h : Quiet c s) (vs : List Ports) : Quiet c (s.withScript vs) := by
  cases vs with
  | nil => exact h
  | cons v vs =>
    exact ⟨⟨h.legal.cfg, h.legal.time, h.legal.regs⟩, h.phase, h.run, h.pend, h.syncRst, h.syncPse, h.syncRsm⟩

/-- In a quiet block the tick application finds nothing to apply. -/
theorem Quiet.afterTick_eq {c : Nat} {s : State} (h : Quiet c s) : afterTick s = s.time := by
  simp [afterTick, h.pend]

theorem Quiet.edges {c : Nat} {s : State} (h : Quiet c s) :
    rstEdge s = false ∧ pseEdge s = false ∧ rsmEdge s = false := by
  simp [rstEdge, pseEdge, rsmEdge, h.syncRst, h.syncPse, h.syncRsm]

/-- A cycle with idle pins leaves the block quiet. -/
theorem Quiet.next {c : Nat} {s : State} {w : CmdWord} (h : Quiet c s) (hports : s.ports = quietPorts w) :
    Quiet (c + 1) (closeCycle s (operated s)) := by
  obtain ⟨-, -, hrun, hpend, hslot, hdcnt, -, -, hrst, hpse, hrsm, -⟩ := closeCycle_fields s (operated s)
  obtain ⟨-, -, hrun', hpend', -⟩ := operated_fields s
  obtain ⟨erst, epse, ersm⟩ := h.edges
  constructor
  case legal => exact closeCycle_legal h.legal
  case phase =>
    rw [framePhase_next h.legal hslot hdcnt (closeCycle_cfg s), closeCycle_cfg, ← h.phase, Nat.mod_add_mod]
  case run => simp [hrun, hrun', epse, ersm, h.run]
  case pend => simp [hpend, hpend', tickOut, wrap, h.run, h.pend]
  case syncRst => rw [hrst, h.syncRst, hports]; rfl
  case syncPse => rw [hpse, h.syncPse, hports]; rfl
  case syncRsm => rw [hrsm, h.syncRsm, hports]; rfl

/-- The time value and the Mode after a cycle of a quiet block are the command's. -/
theorem Quiet.next_timeAndMode {c : Nat} {s : State} (h : Quiet c s) :
    ((closeCycle s (operated s)).time, (closeCycle s (operated s)).dir) =
      if s.slot = 6#3 then cmdApply s.ports.cmd s.time s.dir else (s.time, s.dir) := by
  obtain ⟨htime, hdir, -⟩ := closeCycle_fields s (operated s)
  obtain ⟨htime', hdir', -⟩ := operated_fields s
  rw [htime, hdir, htime', hdir', h.edges.1, if_neg Bool.false_ne_true, Prod.mk.eta, afterCommand, h.afterTick_eq]

/-- The state after a cycle presents the rest of its script. -/
theorem closeCycle_withScript (s : State) (v : Ports) (vs : List Ports) :
    let r := s.withScript (v :: vs)
    (closeCycle r (operated r)).withScript vs = closeCycle r (operated r) := by
  intro r
  obtain ⟨hports, hscript⟩ := closeCycle_inputs r (operated r)
  have hops : (operated r).script = vs := (operated_sameFrame r).script
  apply State.withScript_self
  · intro hne
    obtain ⟨p, ps, rfl⟩ := List.exists_cons_of_ne_nil hne
    rw [hports, nextPorts, hops]; rfl
  · rw [hscript, hops]

/-! ### Running a piece of a script -/

/-- The first vectors `vs` of a script lead the block from cycle `c` in `s` to cycle `c + vs.length` in `t`, quiet again
and about to run the vectors `rest` that follow. -/
structure Runs (c : Nat) (s : State) (vs rest : List Ports) (t : State) : Prop where
  after : After vs.length (s.withScript (vs ++ rest)) t
  quiet : Quiet (c + vs.length) t
  cfg : t.cfg = s.cfg
  rest : t.withScript rest = t

theorem Runs.append {c : Nat} {s t u : State} {vs ws rest : List Ports} (h : Runs c s vs (ws ++ rest) t)
    (k : Runs (c + vs.length) t ws rest u) : Runs c s (vs ++ ws) rest u where
  after := by
    have hk := k.after
    rw [h.rest] at hk
    rw [List.length_append, List.append_assoc]
    exact after_add h.after hk
  quiet := by rw [List.length_append, ← Nat.add_assoc]; exact k.quiet
  cfg := k.cfg.trans h.cfg
  rest := k.rest

/-- Presenting nothing is no cycle. -/
theorem Quiet.runs_nil {c : Nat} {s : State} (h : Quiet c s) (rest : List Ports) :
    Runs c s [] rest (s.withScript rest) where
  after := after_zero.2 rfl
  quiet := h.withScript rest
  cfg := by simp
  rest := by cases rest <;> rfl

/-- One cycle of a script. -/
theorem Quiet.runs_one {c : Nat} {s : State} (h : Quiet c s) (w : CmdWord) (rest : List Ports) :
    ∃ t, Runs c s [quietPorts w] rest t ∧
      (t.time, t.dir) = if s.slot = 6#3 then cmdApply w s.time s.dir else (s.time, s.dir) := by
  have hr := h.withScript (quietPorts w :: rest)
  refine ⟨_, ⟨(after_succ (step_of_legal hr.legal rfl)).2 (after_zero.2 rfl), hr.next rfl, ?_, ?_⟩,
    hr.next_timeAndMode⟩
  · rw [closeCycle_cfg, State.withScript_cfg]
  · exact closeCycle_withScript s (quietPorts w) rest

/-- Cycles that no line claims change neither the time value nor the Mode. -/
theorem Quiet.runs_idle {n : Nat} (rest : List Ports) : ∀ {c : Nat} {s : State}, Quiet c s →
    ∃ t, Runs c s (List.replicate n (quietPorts 0#4)) rest t ∧ t.time = s.time ∧ t.dir = s.dir := by
  induction n with
  | zero => intro c s h; exact ⟨_, h.runs_nil rest, by simp, by simp⟩
  | succ n ih =>
    intro c s h
    obtain ⟨t, hrun, hnop⟩ := h.runs_one 0#4 (List.replicate n (quietPorts 0#4) ++ rest)
    obtain ⟨u, hrun', htime, hdir⟩ := ih hrun.quiet
    have hsame : (t.time, t.dir) = (s.time, s.dir) := hnop.trans (ite_self _)
    exact ⟨u, hrun.append hrun', htime.trans (congrArg Prod.fst hsame), hdir.trans (congrArg Prod.snd hsame)⟩

/-! ### Command lines -/

/-- The idle cycles before a command line's cycle lead to a cycle of the update window, past its first. -/
theorem commandCycle_phase (cfg : Config) (c : Nat) (hu : 2 ≤ cfg.u) :
    6 * cfg.dwell + 1 ≤ (c + (6 * cfg.dwell + 1 - c % cfg.frame)) % cfg.frame := by
  have hframe : cfg.frame = 6 * cfg.dwell + cfg.u := rfl
  have hlt : c % cfg.frame < cfg.frame := Nat.mod_lt _ (by omega)
  rw [← Nat.mod_add_mod, Nat.mod_eq_of_lt (by omega)]
  omega

/-- The vectors of a command line at cycle `c` of a quiet script: idle ones up to a command cycle, then the code. -/
def commandVectors (cfg : Config) (c : Nat) (w : CmdWord) : List Ports :=
  List.replicate (6 * cfg.dwell + 1 - c % cfg.frame) (quietPorts 0#4) ++ [quietPorts w]

theorem expand_cmd_start {cfg : Config} {i : Instr} {w : CmdWord} (hw : codeOf i = some w) (hu : 2 ≤ cfg.u)
    (c : Nat) :
    Line.expand cfg (Cursor.start c) (.cmd i) =
      some (commandVectors cfg c w, Cursor.start (c + (commandVectors cfg c w).length)) := by
  rw [Line.expand_cmd hw hu]
  simp only [commandVectors, List.length_append, List.length_replicate, List.length_singleton, ← Nat.add_assoc]
  rfl

/-- A command line run from a quiet block applies its command, in the line's last cycle. -/
theorem Quiet.runs_command {c : Nat} {s : State} (h : Quiet c s) (hu : 2 ≤ s.cfg.u) (w : CmdWord)
    (rest : List Ports) :
    ∃ t, Runs c s (commandVectors s.cfg c w) rest t ∧ (t.time, t.dir) = cmdApply w s.time s.dir := by
  obtain ⟨t, hidle, htime, hdir⟩ := h.runs_idle ([quietPorts w] ++ rest)
  obtain ⟨u, hcmd, hval⟩ := hidle.quiet.runs_one w rest
  refine ⟨u, hidle.append hcmd, ?_⟩
  have hwindow : t.slot = 6#3 := by
    rw [slot_eq_six_iff hidle.quiet.legal, ← hidle.quiet.phase, hidle.cfg, List.length_replicate]
    have := commandCycle_phase s.cfg c hu
    omega
  rw [hval, if_pos hwindow, htime, hdir]

/-- The vectors of `n` command lines with the code `w`, the first at cycle `c`. -/
def repeatedVectors (cfg : Config) (w : CmdWord) : Nat → Nat → List Ports
  | _, 0 => []
  | c, n + 1 => commandVectors cfg c w ++ repeatedVectors cfg w (c + (commandVectors cfg c w).length) n

theorem expand_replicate_cmd {cfg : Config} {i : Instr} {w : CmdWord} (hw : codeOf i = some w) (hu : 2 ≤ cfg.u)
    (n : Nat) : ∀ c : Nat,
    expand cfg (Cursor.start c) (List.replicate n (.cmd i)) = some (repeatedVectors cfg w c n) := by
  induction n with
  | zero => intro c; rfl
  | succ n ih =>
    intro c
    simp only [List.replicate_succ, expand, expand_cmd_start hw hu, ih, Option.map_some, repeatedVectors]

/-- A command as a function of the time value and the Mode. -/
def applyCode (w : CmdWord) (x : TimeValue × Bool) : TimeValue × Bool := cmdApply w x.1 x.2

/-- The same command line `n` times, run from a quiet block, applies its command `n` times. -/
theorem Quiet.runs_commands (w : CmdWord) (n : Nat) : ∀ {c : Nat} {s : State}, Quiet c s → 2 ≤ s.cfg.u →
    ∃ t, Runs c s (repeatedVectors s.cfg w c n) [] t ∧ (t.time, t.dir) = (applyCode w)^[n] (s.time, s.dir) := by
  induction n with
  | zero => intro c s h _; exact ⟨s, h.runs_nil [], rfl⟩
  | succ n ih =>
    intro c s h hu
    obtain ⟨t, hfirst, hval⟩ := h.runs_command hu w (repeatedVectors s.cfg w _ n ++ [])
    obtain ⟨u, hothers, hval'⟩ := ih hfirst.quiet (hfirst.cfg ▸ hu)
    rw [hfirst.cfg] at hothers
    refine ⟨u, hfirst.append hothers, ?_⟩
    rw [hval', hval, Function.iterate_succ_apply]; rfl

/-- What SETH, SETM, SETS, DOWN and UP come to: the same command line `n` times has an expansion, and after its last
cycle the command has been applied `n` times. -/
theorem Quiet.expand_commands {c : Nat} {s : State} {i : Instr} {w : CmdWord} (h : Quiet c s) (hu : 2 ≤ s.cfg.u)
    (hw : codeOf i = some w) (n : Nat) :
    ∃ vs t, expand s.cfg (Cursor.start c) (List.replicate n (.cmd i)) = some vs ∧
      After vs.length (s.withScript vs) t ∧ (t.time, t.dir) = (applyCode w)^[n] (s.time, s.dir) := by
  obtain ⟨t, hrun, hval⟩ := h.runs_commands w n hu
  have hafter := hrun.after
  rw [List.append_nil] at hafter
  exact ⟨_, t, expand_replicate_cmd hw hu n c, hafter, hval⟩

/-! ### The lines of R83 -/

/-- A command whose code applies `f` to the time value, given `n` times to a quiet block. -/
theorem Quiet.expand_counts {c : Nat} {s : State} {i : Instr} {w : CmdWord} {f : TimeValue → TimeValue}
    (h : Quiet c s) (hu : 2 ≤ s.cfg.u) (hw : codeOf i = some w) (hf : ∀ t d, cmdApply w t d = (f t, d)) (n : Nat) :
    ∃ vs t, expand s.cfg (Cursor.start c) (List.replicate n (.cmd i)) = some vs ∧
      After vs.length (s.withScript vs) t ∧ t.time = f^[n] s.time ∧ t.dir = s.dir := by
  obtain ⟨vs, t, hexpand, hafter, hval⟩ := h.expand_commands hu hw n
  have hcode : applyCode w = Prod.map f id := funext fun x => hf x.1 x.2
  rw [hcode, Prod.map_iterate, Function.iterate_id] at hval
  exact ⟨vs, t, hexpand, hafter, congrArg Prod.fst hval, congrArg Prod.snd hval⟩

/-- DOWN and UP are one toggle where the Mode is not the wanted one, and nothing where it is. -/
theorem Quiet.expand_setMode {c : Nat} {s : State} (h : Quiet c s) (hu : 2 ≤ s.cfg.u) (mode : Bool) :
    ∃ vs t, expand s.cfg (Cursor.start c) (List.replicate (if s.dir = mode then 0 else 1) (.cmd .tgl)) = some vs ∧
      After vs.length (s.withScript vs) t ∧ t.time = s.time ∧ t.dir = mode := by
  obtain ⟨vs, t, hexpand, hafter, hval⟩ :=
    h.expand_commands (i := .tgl) (w := 7#4) hu rfl (if s.dir = mode then 0 else 1)
  refine ⟨vs, t, hexpand, hafter, ?_⟩
  split at hval
  · next hmode =>
    obtain ⟨htime, hdir⟩ := Prod.mk.inj hval
    exact ⟨htime, hdir.trans hmode⟩
  · next hmode =>
    obtain ⟨htime, hdir⟩ := Prod.mk.inj (show (t.time, t.dir) = (s.time, !s.dir) from hval)
    exact ⟨htime, hdir.trans (Bool.not_eq.mpr hmode)⟩

theorem down_eq_replicate (dir : Bool) : down dir = List.replicate (if dir = true then 0 else 1) (.cmd .tgl) := by
  cases dir <;> rfl

theorem up_eq_replicate (dir : Bool) : up dir = List.replicate (if dir = false then 0 else 1) (.cmd .tgl) := by
  cases dir <;> rfl

/-- Settles O60: a stopped block with quiet pins is changed by the commands alone, each is presented in a command
cycle, and so many increments from 0 set the field (O59). -/
theorem scriptLinesReachTheirValue : Obligations.ScriptLinesReachTheirValue := by
  intro s c hlegal hu hphase hrun hpend hrst hpse hrsm
  have h : Quiet c s := ⟨hlegal, hphase, hrun, hpend, hrst, hpse, hrsm⟩
  refine ⟨fun n hn hhr => ?_, fun n hn hmin => ?_, fun n hn hsec => ?_, ?_, ?_⟩
  · rw [← Encoding.iterate_incH hhr hn]
    exact h.expand_counts hu rfl (fun _ _ => rfl) n
  · rw [← Encoding.iterate_incM hmin hn]
    exact h.expand_counts hu rfl (fun _ _ => rfl) n
  · rw [← Encoding.iterate_incS hsec hn]
    exact h.expand_counts hu rfl (fun _ _ => rfl) n
  · rw [down_eq_replicate]
    exact h.expand_setMode hu true
  · rw [up_eq_replicate]
    exact h.expand_setMode hu false

end Sys2Proof.Proofs.Scripts
end

section
/-! The statements of 40_tick_generator.md: the count of `tcnt` (R101), TICK_WRAP and `tick_out` (R102), the PendingTick
flag (R103, R104) and the period of the ticks (R106). -/

namespace Sys2Proof.Proofs.TickGenerator

open Sys2Proof.Machine

/-! ### The conditions of a tick -/

theorem rstEdge_iff (s : State) : rstEdge s = true ↔ s.syncRst.h = true ∧ s.syncRst.q2 = false := by
  simp [rstEdge, Synchroniser.fell]

theorem wrap_iff (s : State) : wrap s = true ↔ s.run = true ∧ s.tcnt = s.cfg.tickDiv - 1 := by
  simp [wrap]

theorem tickOut_iff (s : State) : tickOut s = true ↔ wrap s = true ∧ ¬rstEdge s = true := by
  simp [tickOut]

theorem consume_iff (s : State) : consume s = true ↔ s.slot = 6#3 ∧ s.dcnt = 0 := by
  simp [consume, inWindow]

theorem outputs_tickOut {s : State} (hpor : s.ports.por = false) : (outputs s).tickOut = tickOut s := by
  rw [outputs, hpor]; rfl

/-! ### One cycle -/

/-- TICK_WRAP at the wrap raises the flag by the tick, which a reset edge suppresses. -/
theorem effect_tickWrap_of_wrap {s : State} (h : wrap s = true) :
    effect .tickWrap s = { s with tcnt := 0, pend := s.pend || !rstEdge s } := by
  simp [effect, h, pendAfterWrap, tickOut, State.setTcnt, State.setPend]

/-- Settles O27: TICK_WRAP acts where its event condition is met, and the output is the tick alone. -/
theorem wrapRestartsTheCounterAndRaisesPend : Obligations.WrapRestartsTheCounterAndRaisesPend := by
  refine ⟨fun s htime => ?_, fun s hpor => ?_⟩
  · rw [exec_of_legal _ htime]
    by_cases hwrap : wrap s = true
    · rw [effect_tickWrap_of_wrap hwrap]
      exact congrArg _ (if_pos ((wrap_iff s).1 hwrap)).symm
    · obtain ⟨-, hstay, -⟩ := effect_of_not_met s
      rw [hstay (Bool.eq_false_of_not_eq_true hwrap)]
      exact congrArg _ (if_neg (mt (wrap_iff s).2 hwrap)).symm
  · rw [outputs_tickOut hpor, tickOut_iff, wrap_iff, rstEdge_iff]; rfl

/-- The counting of R101: the wrap and the reset edge are operations of the cycle, counting up is part of its close. -/
theorem closeCycle_tcnt (s : State) :
    (closeCycle s (operated s)).tcnt =
      if rstEdge s = true then 0
      else if s.run = true then (if s.tcnt = s.cfg.tickDiv - 1 then 0 else s.tcnt + 1) else s.tcnt := by
  obtain ⟨-, -, -, -, -, -, hclose, -⟩ := closeCycle_fields s (operated s)
  obtain ⟨-, -, -, -, hops⟩ := operated_fields s
  rw [hclose, hops]
  by_cases hrst : rstEdge s = true
  · simp [hrst]
  · by_cases hrun : s.run = true
    · by_cases hlast : s.tcnt = s.cfg.tickDiv - 1 <;> simp [hrst, hrun, wrap, hlast]
    · simp [hrst, hrun, wrap]

/-- Settles O37, from the count of one cycle. -/
theorem tickCounterCounts : Obligations.TickCounterCounts := by
  intro s hlegal hpor
  refine ⟨_, step_of_legal hlegal hpor, ?_⟩
  simp only [closeCycle_tcnt, rstEdge_iff]

/-- Settles O38: the cycle's operations leave the flag of R104, and its close does not write it. -/
theorem pendingTickRule : Obligations.PendingTickRule := by
  intro s hlegal hpor
  refine ⟨_, step_of_legal hlegal hpor, ?_⟩
  obtain ⟨-, -, -, hclose, -⟩ := closeCycle_fields s (operated s)
  obtain ⟨-, -, -, hops, -⟩ := operated_fields s
  rw [hclose, hops, outputs_tickOut hpor, ← consume_iff]
  simp

/-! ### Many cycles without POR -/

theorem closeCycle_noPor {s : State} (h : NoPor s) : NoPor (closeCycle s (operated s)) := by
  obtain ⟨-, hscript⟩ := h
  obtain ⟨hports', hscript'⟩ := closeCycle_inputs s (operated s)
  rw [NoPor, hports', hscript', nextPorts, (operated_sameFrame s).script]
  cases hs : s.script with
  | nil => simp
  | cons p ps => rw [hs] at hscript; simpa using hscript

/-- `t` is the state `k` cycles after a legal state `s` whose script has no POR: legal, and without POR to come. -/
structure Reached (k : Nat) (s t : State) : Prop where
  after : After k s t
  legal : Legal t
  noPor : NoPor t
  cfg : t.cfg = s.cfg

theorem Reached.start {s : State} (hlegal : Legal s) (hnoPor : NoPor s) : Reached 0 s s :=
  ⟨after_zero.2 rfl, hlegal, hnoPor, rfl⟩

theorem Reached.next {k : Nat} {s t : State} (h : Reached k s t) :
    Reached (k + 1) s (closeCycle t (operated t)) where
  after := after_snoc h.after (step_of_legal h.legal h.noPor.1)
  legal := Scripts.closeCycle_legal h.legal
  noPor := closeCycle_noPor h.noPor
  cfg := (Scripts.closeCycle_cfg t).trans h.cfg

/-! ### The period -/

/-- The cycle counts: the block is Running and no reset edge restarts the count. -/
def counting (t : State) : Bool := t.run && !rstEdge t

theorem counting_iff (t : State) : counting t = true ↔ t.run = true ∧ ¬rstEdge t = true := by
  simp [counting]

/-- Counting is adding 1 modulo the divider. -/
theorem closeCycle_tcnt_of_counting {s : State} (hlegal : Legal s) (h : counting s = true) :
    (closeCycle s (operated s)).tcnt = (s.tcnt + 1) % s.cfg.tickDiv := by
  obtain ⟨hrun, hrst⟩ := (counting_iff s).1 h
  obtain ⟨-, -, hlt, -⟩ := registersLegal_bounds hlegal.regs
  rw [closeCycle_tcnt, if_neg hrst, if_pos hrun]
  split
  · have hend : s.tcnt + 1 = s.cfg.tickDiv := by omega
    rw [hend, Nat.mod_self]
  · rw [Nat.mod_eq_of_lt (by omega)]

/-- While each cycle counts, `tcnt` runs through the residues of the divider. -/
theorem tcnt_after_counting {s : State} {n : Nat} (hlegal : Legal s) (hnoPor : NoPor s)
    (h : holdsFor counting n s = true) (k : Nat) (hk : k < n) :
    ∃ t, Reached k s t ∧ t.tcnt = (s.tcnt + k) % s.cfg.tickDiv := by
  induction k with
  | zero =>
    obtain ⟨-, -, hlt, -⟩ := registersLegal_bounds hlegal.regs
    exact ⟨s, .start hlegal hnoPor, (Nat.mod_eq_of_lt hlt).symm⟩
  | succ k ih =>
    obtain ⟨t, ht, htcnt⟩ := ih (by omega)
    have hcounts : counting t = true := holdsFor_at h (by omega) ht.after
    refine ⟨_, ht.next, ?_⟩
    rw [closeCycle_tcnt_of_counting ht.legal hcounts, ht.cfg, htcnt, Nat.mod_add_mod, Nat.add_assoc]

/-- Of a divider's consecutive residues exactly one is the last. -/
theorem add_mod_eq_pred_iff {c i n : Nat} (hc : c < n) (hi : i < n) : (c + i) % n = n - 1 ↔ i = n - 1 - c := by
  by_cases h : c + i < n
  · rw [Nat.mod_eq_of_lt h]; omega
  · rw [Nat.mod_eq_sub_mod (by omega), Nat.mod_eq_of_lt (by omega)]; omega

/-- In a period in which each cycle counts, the tick is out in the cycle that brings `tcnt` to its last value. -/
theorem tickOut_in_period_iff {s : State} (hlegal : Legal s) (hnoPor : NoPor s)
    (h : holdsFor counting s.cfg.tickDiv s = true) (i : Nat) (hi : i < s.cfg.tickDiv) :
    (∃ t, After i s t ∧ (outputs t).tickOut = true) ↔ i = s.cfg.tickDiv - 1 - s.tcnt := by
  obtain ⟨-, -, hlt, -⟩ := registersLegal_bounds hlegal.regs
  obtain ⟨t, ht, htcnt⟩ := tcnt_after_counting hlegal hnoPor h i hi
  obtain ⟨hrun, hrst⟩ := (counting_iff t).1 (holdsFor_at h hi ht.after)
  have htick : (outputs t).tickOut = true ↔ i = s.cfg.tickDiv - 1 - s.tcnt := by
    rw [outputs_tickOut ht.noPor.1, tickOut_iff, wrap_iff, ht.cfg, htcnt, add_mod_eq_pred_iff hlt hi]
    simp [hrun, hrst]
  rw [← htick]
  constructor
  · rintro ⟨u, hu, hout⟩
    rwa [after_det ht.after hu]
  · exact fun hout => ⟨t, ht.after, hout⟩

/-- Settles O53: the cycle of the period's tick is known from the count at its start. -/
theorem oneTickPerPeriod : Obligations.OneTickPerPeriod := by
  intro s hlegal hnoPor h
  have htick := tickOut_in_period_iff hlegal hnoPor h
  obtain ⟨-, -, hlt, -⟩ := registersLegal_bounds hlegal.regs
  have hj : s.cfg.tickDiv - 1 - s.tcnt < s.cfg.tickDiv := by omega
  exact ⟨_, hj, (htick _ hj).2 rfl, fun i hi => (htick i hi).1⟩

end Sys2Proof.Proofs.TickGenerator
end

section
/-! The statements of 41_counter.md: the six functions on the time value (R121 to R126, R138, R139), the commands
(R127 to R136) and the consumed tick (R137). -/

namespace Sys2Proof.Proofs.Counter

open Sys2Proof.Machine

/-! ### The six functions on triples of natural numbers -/

theorem triple_incM {t : TimeValue} (hlegal : t.legal = true) :
    t.incM.triple =
      if t.min.toNat < 59 then (t.hr.toNat, t.min.toNat + 1, t.sec.toNat)
      else if t.hr.toNat < 23 then (t.hr.toNat + 1, 0, t.sec.toNat) else (0, 0, 0) := by
  obtain ⟨hlt, hmin, hhr, hsec⟩ | ⟨hend, hlt, hmin, hhr, hsec⟩ | ⟨hend, hlast, hzero⟩ := t.incM_cases hlegal
  · rw [if_pos hlt, TimeValue.triple, hmin, hhr, hsec]
  · rw [if_neg (by omega), if_pos hlt, TimeValue.triple, hmin, hhr, hsec]; rfl
  · rw [if_neg (by omega), if_neg (by omega), hzero]; rfl

theorem triple_incS {t : TimeValue} (hlegal : t.legal = true) :
    t.incS.triple =
      if t.sec.toNat < 59 then (t.hr.toNat, t.min.toNat, t.sec.toNat + 1)
      else if t.min.toNat < 59 then (t.hr.toNat, t.min.toNat + 1, 0)
      else if t.hr.toNat < 23 then (t.hr.toNat + 1, 0, 0) else (0, 0, 0) := by
  obtain ⟨hlt, hsec, hmin, hhr⟩ | ⟨hend, hcascade⟩ := t.incS_cases hlegal
  · rw [if_pos hlt, TimeValue.triple, hsec, hmin, hhr]
  · obtain ⟨-, hmin, hhr⟩ := t.legal_iff.1 hlegal
    have hlegal₀ : TimeValue.legal { t with sec := 0#6 } = true :=
      (TimeValue.legal_iff _).2 ⟨Nat.zero_le 59, hmin, hhr⟩
    rw [if_neg (by omega), hcascade, triple_incM hlegal₀]; rfl

theorem triple_decM (t : TimeValue) :
    t.decM.triple =
      if 0 < t.min.toNat then (t.hr.toNat, t.min.toNat - 1, t.sec.toNat)
      else if 0 < t.hr.toNat then (t.hr.toNat - 1, 59, t.sec.toNat) else t.triple := by
  obtain ⟨hpos, hmin, hhr, hsec⟩ | ⟨hzero, hpos, hmin, hhr, hsec⟩ | ⟨hzero, hfloor, hstay⟩ := t.decM_cases
  · rw [if_pos hpos, TimeValue.triple, hmin, hhr, hsec]
  · rw [if_neg (by omega), if_pos hpos, TimeValue.triple, hmin, hhr, hsec]; rfl
  · rw [if_neg (by omega), if_neg (by omega), hstay]

theorem triple_decS (t : TimeValue) :
    t.decS.triple =
      if 0 < t.sec.toNat then (t.hr.toNat, t.min.toNat, t.sec.toNat - 1)
      else if t.min.toNat = 0 ∧ t.hr.toNat = 0 then (0, 0, 0)
      else if 0 < t.min.toNat then (t.hr.toNat, t.min.toNat - 1, 59) else (t.hr.toNat - 1, 59, 59) := by
  obtain ⟨hpos, hsec, hmin, hhr⟩ | ⟨hsec, hmin, hhr, hfloor⟩ | ⟨hsec, habove, hborrow⟩ := t.decS_cases
  · rw [if_pos hpos, TimeValue.triple, hsec, hmin, hhr]
  · rw [if_neg (by omega), if_pos ⟨hmin, hhr⟩, hfloor]; rfl
  · rw [if_neg (by omega), if_neg (by omega), hborrow]
    obtain ⟨hpos, hmin, hhr, -⟩ | ⟨hzero, -, hmin, hhr, -⟩ | ⟨hzero, hfloor, -⟩ := t.decM_cases
    · rw [if_pos hpos, TimeValue.triple, hmin, hhr]; rfl
    · rw [if_neg (by omega), TimeValue.triple, hmin, hhr]; rfl
    · omega

theorem triple_incH (t : TimeValue) :
    t.incH.triple = if t.hr.toNat < 23 then (t.hr.toNat + 1, t.min.toNat, t.sec.toNat) else t.triple := by
  obtain ⟨hlt, hhr, hmin, hsec⟩ | ⟨hclamp, hstay⟩ := t.incH_cases
  · rw [if_pos hlt, TimeValue.triple, hhr, hmin, hsec]
  · rw [if_neg (by omega), hstay]

theorem triple_decH (t : TimeValue) :
    t.decH.triple = if 0 < t.hr.toNat then (t.hr.toNat - 1, t.min.toNat, t.sec.toNat) else t.triple := by
  obtain ⟨hpos, hhr, hmin, hsec⟩ | ⟨hclamp, hstay⟩ := t.decH_cases
  · rw [if_pos hpos, TimeValue.triple, hhr, hmin, hsec]
  · rw [if_neg (by omega), hstay]

/-- Settles O8, from the two increments on triples. -/
theorem incrementsCarryAsStated : Obligations.IncrementsCarryAsStated := by
  rintro t _ _ _ hlegal ⟨⟩
  exact ⟨triple_incM hlegal, triple_incS hlegal⟩

/-- Settles O9, from the two decrements on triples. -/
theorem decrementsBorrowAsStated : Obligations.DecrementsBorrowAsStated := by
  rintro t _ _ _ - ⟨⟩
  exact ⟨triple_decM t, triple_decS t⟩

/-- Settles O10, from the two manual hour functions on triples. -/
theorem manualHoursClamp : Obligations.ManualHoursClamp := by
  rintro t _ _ _ - ⟨⟩
  exact ⟨triple_incH t, triple_decH t⟩

/-! ### The six functions on the number of seconds -/

/-- `N(T)` is a function of the triple. -/
theorem seconds_eq_of_triple {t : TimeValue} {h m s : Nat} (htriple : t.triple = (h, m, s)) :
    t.seconds = 3600 * h + 60 * m + s := by
  cases htriple; rfl

theorem seconds_incS {t : TimeValue} (hlegal : t.legal = true) :
    t.incS.seconds = (t.seconds + 1) % 86400 := by
  obtain ⟨hsec, hmin, hhr⟩ := t.legal_iff.1 hlegal
  have htriple := triple_incS hlegal
  rw [seconds_eq_of_triple (t := t) rfl]
  split_ifs at htriple <;> rw [seconds_eq_of_triple htriple] <;> omega

theorem seconds_decS (t : TimeValue) : t.decS.seconds = t.seconds - 1 := by
  have htriple := triple_decS t
  rw [seconds_eq_of_triple (t := t) rfl]
  split_ifs at htriple <;> rw [seconds_eq_of_triple htriple] <;> omega

theorem seconds_incM {t : TimeValue} (hlegal : t.legal = true) :
    t.incM.seconds = if t.hr.toNat < 23 ∨ t.min.toNat < 59 then t.seconds + 60 else 0 := by
  obtain ⟨-, hmin, -⟩ := t.legal_iff.1 hlegal
  have htriple := triple_incM hlegal
  rw [seconds_eq_of_triple (t := t) rfl]
  split_ifs at htriple <;> rw [seconds_eq_of_triple htriple] <;> split_ifs <;> omega

theorem seconds_decM {t : TimeValue} (hlegal : t.legal = true) :
    t.decM.seconds = if 60 ≤ t.seconds then t.seconds - 60 else t.seconds := by
  obtain ⟨hsec, -, -⟩ := t.legal_iff.1 hlegal
  have htriple := triple_decM t
  rw [seconds_eq_of_triple (t := t) rfl]
  split_ifs at htriple <;> rw [seconds_eq_of_triple htriple] <;> split_ifs <;> omega

theorem seconds_incH (t : TimeValue) :
    t.incH.seconds = if t.hr.toNat < 23 then t.seconds + 3600 else t.seconds := by
  have htriple := triple_incH t
  rw [seconds_eq_of_triple (t := t) rfl]
  split_ifs at htriple ⊢ <;> rw [seconds_eq_of_triple htriple]
  omega

theorem seconds_decH (t : TimeValue) :
    t.decH.seconds = if 0 < t.hr.toNat then t.seconds - 3600 else t.seconds := by
  have htriple := triple_decH t
  rw [seconds_eq_of_triple (t := t) rfl]
  split_ifs at htriple ⊢ <;> rw [seconds_eq_of_triple htriple]
  omega

/-- Settles O11, one function after the other. -/
theorem counterArithmeticCountsSeconds : Obligations.CounterArithmeticCountsSeconds := fun t hlegal =>
  ⟨⟨t.incS_legal hlegal, seconds_incS hlegal⟩,
    ⟨t.decS_legal hlegal, (seconds_decS t).trans (Nat.max_zero _).symm⟩,
    ⟨t.incM_legal hlegal, seconds_incM hlegal⟩, ⟨t.decM_legal hlegal, seconds_decM hlegal⟩,
    ⟨t.incH_legal hlegal, seconds_incH t⟩, ⟨t.decH_legal hlegal, seconds_decH t⟩⟩

/-! ### A valid triple is known from its number of seconds -/

theorem seconds_injOn_legal {t u : TimeValue} (ht : t.legal = true) (hu : u.legal = true)
    (h : t.seconds = u.seconds) : t = u := by
  obtain ⟨htsec, htmin, -⟩ := t.legal_iff.1 ht
  obtain ⟨husec, humin, -⟩ := u.legal_iff.1 hu
  unfold TimeValue.seconds at h
  apply TimeValue.ext_toNat <;> omega

theorem seconds_lt {t : TimeValue} (hlegal : t.legal = true) : t.seconds < 86400 := by
  obtain ⟨hsec, hmin, hhr⟩ := t.legal_iff.1 hlegal
  unfold TimeValue.seconds
  omega

theorem decS_incS {t : TimeValue} (hlegal : t.legal = true) (hlast : t ≠ ⟨23#5, 59#6, 59#6⟩) :
    t.incS.decS = t := by
  have hinc := t.incS_legal hlegal
  have hday := seconds_lt hlegal
  have hne : t.seconds ≠ 86399 := fun h => hlast (seconds_injOn_legal hlegal (by decide) h)
  apply seconds_injOn_legal (TimeValue.decS_legal _ hinc) hlegal
  calc t.incS.decS.seconds = (t.seconds + 1) % 86400 - 1 := by rw [seconds_decS, seconds_incS hlegal]
    _ = t.seconds := by omega

theorem incS_decS {t : TimeValue} (hlegal : t.legal = true) (hfirst : t ≠ ⟨0#5, 0#6, 0#6⟩) :
    t.decS.incS = t := by
  have hdec := t.decS_legal hlegal
  have hday := seconds_lt hlegal
  have hne : t.seconds ≠ 0 := fun h => hfirst (seconds_injOn_legal hlegal (by decide) h)
  apply seconds_injOn_legal (TimeValue.incS_legal _ hdec) hlegal
  calc t.decS.incS.seconds = (t.seconds - 1 + 1) % 86400 := by rw [seconds_incS hdec, seconds_decS]
    _ = t.seconds := by omega

/-- Settles O12, by counting seconds; at the two exceptional points the functions are evaluated. -/
theorem incrementAndDecrementAreInverse : Obligations.IncrementAndDecrementAreInverse :=
  ⟨fun _ => decS_incS, by decide, fun _ => incS_decS, by decide⟩

/-! ### The consumed tick -/

theorem tick_eq (t : TimeValue) (dir : Bool) : t.tick dir = if dir = false then t.incS else t.decS := by
  cases dir <;> rfl

theorem outputs_tickDone {s : State} (hpor : s.ports.por = false) : (outputs s).tickDone = tickDone s := by
  rw [outputs, hpor]; rfl

theorem effect_tickApply (s : State) :
    effect .tickApply s =
      if s.slot = 6#3 ∧ s.dcnt = 0 ∧ s.pend = true then
        { s with time := if s.dir = false then s.time.incS else s.time.decS, pend := false }
      else s := by
  simp only [effect, tickDone_iff, ← tick_eq, State.setTime, State.setPend]

/-- Settles O28, from the effect of TICK_APPLY. -/
theorem tickAppliedByMode : Obligations.TickAppliedByMode := by
  refine ⟨fun s htime => ?_, fun s hpor => ?_, by decide, by decide, by decide⟩
  · rw [exec_of_legal _ htime, effect_tickApply]
  · rw [outputs_tickDone hpor, tickDone_iff]

/-- A tick consumed in CountUp adds one second modulo a day. -/
theorem seconds_exec_tickApply {s t : State} (hdir : s.dir = false) (htick : tickDone s = true)
    (h : exec .tickApply s = .next t) : t.time.seconds = (s.time.seconds + 1) % 86400 := by
  obtain ⟨hlegal, rfl⟩ := exec_next h
  rw [effect_tickApply, if_pos ((tickDone_iff s).1 htick), if_pos hdir]
  exact seconds_incS hlegal

/-- Settles O13, by induction on the number of ticks. -/
theorem ticksFromZeroCountSeconds : Obligations.TicksFromZeroCountSeconds := by
  intro k s hstart hdir htick hnext
  induction k with
  | zero => rw [hstart]; rfl
  | succ k ih =>
    obtain ⟨t, hexec, htime⟩ := hnext k
    rw [htime, seconds_exec_tickApply (hdir k) (htick k) hexec, ih, Nat.mod_add_mod]

/-! ### The commands -/

/-- What every command code does: the row of `cmd_apply` in the update window, nothing elsewhere. -/
theorem exec_decodeCmd (w : CmdWord) {s : State} (htime : s.time.legal = true) :
    exec (decodeCmd w) s =
      .next (if s.slot = 6#3 then
          { s with time := (cmdApply w s.time s.dir).1, dir := (cmdApply w s.time s.dir).2 }
        else s) := by
  rw [exec_of_legal _ htime, effect_command]
  simp only [inWindow, decide_eq_true_eq, State.setTime, State.setDir]

theorem cmdApply_time (w : CmdWord) (t : TimeValue) (dir : Bool) :
    (cmdApply w t dir).1 =
      if w = 1#4 then t.incS else if w = 2#4 then t.decS else if w = 3#4 then t.incM
      else if w = 4#4 then t.decM else if w = 5#4 then t.incH else if w = 6#4 then t.decH else t := by
  simp only [cmdApply, ← BitVec.toNat_inj, BitVec.toNat_ofNat]
  split <;> simp_all

/-- Settles O23, from the table `cmd_apply` and its two columns. -/
theorem commandsActOnlyInTheWindow : Obligations.CommandsActOnlyInTheWindow := by
  intro w s htime
  rw [exec_decodeCmd w htime, cmdApply_time, StateRegisters.cmdApply_dir]

/-- Settles O14: NOP has no effect in any cycle. -/
theorem nopChangesNothing : Obligations.NopChangesNothing :=
  ⟨rfl, fun _ => exec_of_legal .nop⟩

/-- Settles O15: row 0001 of `cmd_apply`; at 59 seconds the increment is the cascade by definition. -/
theorem incSecondsCommand : Obligations.IncSecondsCommand :=
  ⟨rfl, fun _ => exec_decodeCmd 1#4, by decide, fun _ _ => rfl, by decide⟩

theorem decM_borrow {h : BitVec 5} (s : BitVec 6) (hpos : 0#5 < h) :
    TimeValue.decM ⟨h, 0#6, s⟩ = ⟨h - 1#5, 59#6, s⟩ := by
  rw [TimeValue.decM, if_neg (BitVec.lt_irrefl 0#6), if_pos hpos]

theorem decS_borrow {h : BitVec 5} (hpos : 0#5 < h) :
    TimeValue.decS ⟨h, 0#6, 0#6⟩ = ⟨h - 1#5, 59#6, 59#6⟩ := by
  have hne : h ≠ 0#5 := by rintro rfl; exact absurd hpos (by decide)
  rw [TimeValue.decS, if_neg (BitVec.lt_irrefl 0#6), if_neg (fun hfloor => hne hfloor.2), decM_borrow _ hpos]

/-- Settles O16: row 0010 of `cmd_apply`, and the double borrow. -/
theorem decSecondsCommand : Obligations.DecSecondsCommand :=
  ⟨rfl, fun _ => exec_decodeCmd 2#4, by decide, fun _ => decS_borrow, by decide⟩

/-- Settles O17: row 0011 of `cmd_apply`; at 59 minutes only the hours decide. -/
theorem incMinutesCommand : Obligations.IncMinutesCommand :=
  ⟨rfl, fun _ => exec_decodeCmd 3#4, fun _ => rfl, fun _ _ hlt => if_pos hlt, by decide⟩

/-- Settles O18: row 0100 of `cmd_apply`, and the borrow from the hours. -/
theorem decMinutesCommand : Obligations.DecMinutesCommand :=
  ⟨rfl, fun _ => exec_decodeCmd 4#4, fun _ => rfl, fun _ s => decM_borrow s, by decide⟩

/-- Settles O19: row 0101 of `cmd_apply`; the clamp is the second branch of `inc_h`. -/
theorem incHoursCommand : Obligations.IncHoursCommand :=
  ⟨rfl, fun _ => exec_decodeCmd 5#4, fun _ _ => rfl⟩

/-- Settles O20: row 0110 of `cmd_apply`; the clamp is the second branch of `dec_h`. -/
theorem decHoursCommand : Obligations.DecHoursCommand :=
  ⟨rfl, fun _ => exec_decodeCmd 6#4, fun _ _ => rfl, by decide⟩

/-- The Mode is no part of what places a cycle in the window, and flipping it twice gives it back. -/
theorem effect_tgl_effect_tgl (s : State) : effect .tgl (effect .tgl s) = s := by
  by_cases hwin : inWindow s = true
  · have hflip : effect .tgl s = s.setDir (!s.dir) := if_pos hwin
    have hback : effect .tgl (s.setDir (!s.dir)) = (s.setDir (!s.dir)).setDir (!!s.dir) := if_pos hwin
    rw [hflip, hback, Bool.not_not]; rfl
  · have hstay : effect .tgl s = s := if_neg hwin
    rw [hstay, hstay]

/-- Settles O21: row 0111 of `cmd_apply`, read off the LED outputs, and undone by a second TGL. -/
theorem toggleFlipsTheMode : Obligations.ToggleFlipsTheMode := by
  refine ⟨rfl, fun _ => exec_decodeCmd 7#4, fun s t hslot hpor h => ?_, fun s t h => ?_⟩
  · obtain ⟨-, rfl⟩ := exec_next h
    have hflip : effect .tgl s = s.setDir (!s.dir) := if_pos (decide_eq_true hslot)
    rw [hflip, outputs, State.setDir_ports, hpor]
    exact ⟨Bool.not_not _, rfl⟩
  · obtain ⟨hlegal, rfl⟩ := exec_next h
    rw [exec_of_legal _ (effect_time_legal .tgl s hlegal), effect_tgl_effect_tgl]

/-- A reserved code in a window cycle is the first duty a host that has powered the block up can break in it. -/
theorem dutyBroken_of_isReservedCode (k : Policy) {m : Monitor} {s : State} (hpowered : m.powered = true)
    (hpor : s.ports.por = false) (hslot : s.slot = 6#3) (hcode : isReservedCode s.ports.cmd = true) :
    dutyBroken k m s = some .noReservedCode := by
  simp [dutyBroken, hpowered, hpor, inWindow, hslot, hcode]

/-- Settles O22: the operation has no effect, and the monitor names the duty before the block's step. -/
theorem reservedCodesChangeNothing : Obligations.ReservedCodesChangeNothing := by
  refine ⟨fun op _ => exec_of_legal (.reserved op), fun k m s hpowered hpor hslot hcode => ?_⟩
  rw [watchedStep, dutyBroken_of_isReservedCode k hpowered hpor hslot hcode]

end Sys2Proof.Proofs.Counter
end

section
/-! The statements of 42_multiplexer.md: the digit positions and the digit split (R150, R151), the sequencer (R153), the
display outputs (R154), the bus register (R155), the frame law (R157) and what writes the time value (R159). -/

namespace Sys2Proof.Proofs.Multiplexer

open Sys2Proof.Machine

/-! ### The digit split -/

@[simp] theorem onesOf_toNat (n : Nat) : (onesOf n).toNat = n % 10 := by
  rw [onesOf, BitVec.toNat_ofNat]; omega

/-- The 4-bit bus holds the tens place of every time field. -/
theorem tensOf_toNat {n : Nat} (h : n < 64) : (tensOf n).toNat = n / 10 := by
  rw [tensOf, BitVec.toNat_ofNat]; omega

/-- Settles O36: the split is that of natural numbers, no digit being cut off by the bus, and the bounds on the tens
are the legal ranges of the fields divided by 10. -/
theorem digitsAreDecimal : Obligations.DigitsAreDecimal := by
  intro t hlegal
  obtain ⟨hsec, hmin, hhr⟩ := t.legal_iff.1 hlegal
  have hsecTens : (digit .secTens t).toNat = t.sec.toNat / 10 := tensOf_toNat (by omega)
  have hminTens : (digit .minTens t).toNat = t.min.toNat / 10 := tensOf_toNat (by omega)
  have hhrTens : (digit .hrTens t).toNat = t.hr.toNat / 10 := tensOf_toNat (by omega)
  refine ⟨onesOf_toNat _, hsecTens, onesOf_toNat _, hminTens, onesOf_toNat _, hhrTens,
    fun p => digit_le_nine p t, ?_, ?_, ?_⟩
  · rw [BitVec.le_def, hsecTens]; exact Nat.div_le_div_right hsec
  · rw [BitVec.le_def, hminTens]; exact Nat.div_le_div_right hmin
  · rw [BitVec.le_def, hhrTens]; exact Nat.div_le_div_right hhr

/-! ### The display outputs -/

/-- `en[k] = (slot = k)` of R154. -/
theorem getLsbD_enableLines : ∀ (slot : BitVec 3) (k : Nat), k < 6 →
    (enableLines slot).getLsbD k = decide (slot.toNat = k) := by
  decide

theorem enableLines_window : enableLines 6#3 = 0#6 := rfl

theorem enableLines_render : ∀ slot : BitVec 3, slot ≤ 6#3 → slot ≠ 6#3 →
    enableLines slot = 1#6 <<< slot.toNat := by
  decide

theorem outputs_of_no_por {s : State} (hpor : s.ports.por = false) : outputs s = outputsRunning s :=
  if_neg (by rw [hpor]; exact Bool.false_ne_true)

theorem outputs_of_por {s : State} (hpor : s.ports.por = true) : outputs s = Outputs.duringPor :=
  if_pos hpor

/-- Settles O35: without POR the enable lines are those of R154 and the bus shows `bus_r`. -/
theorem atMostOneDigitEnabled : Obligations.AtMostOneDigitEnabled := by
  refine ⟨fun s hslot hpor => ?_, fun s hpor => by rw [outputs_of_por hpor]; rfl⟩
  have hen (k : Nat) (hk : k < 6) : s.slot.toNat = k ↔ (outputs s).en.getLsbD k = true := by
    rw [outputs_of_no_por hpor, outputsRunning, getLsbD_enableLines _ _ hk, decide_eq_true_iff]
  have hdisplay : (outputs s).display = enableLines s.slot ++ s.busR := by
    rw [outputs_of_no_por hpor]; rfl
  refine ⟨fun j k hj hk hjon hkon => ?_, hen, fun hwin => ?_, fun hrender => ?_⟩
  · exact ((hen j hj).2 hjon).symm.trans ((hen k hk).2 hkon)
  · rw [hdisplay, hwin, enableLines_window]
  · rw [hdisplay, enableLines_render _ hslot hrender]

/-! ### The sequencer -/

theorem lastOfSlot_iff (s : State) :
    lastOfSlot s = true ↔ s.dcnt = if s.slot.toNat < 6 then s.cfg.dwell - 1 else s.cfg.u - 1 := by
  rw [lastOfSlot, decide_eq_true_iff, Scripts.slotLength_eq, apply_ite (· - 1)]

/-- Settles O40: the cycle's close alone writes the sequencer, from its old place and the parameters. -/
theorem sequencerAdvances : Obligations.SequencerAdvances := by
  intro s hlegal hpor
  refine ⟨_, step_of_legal hlegal hpor, ?_⟩
  obtain ⟨-, -, -, -, hslot, hdcnt, -⟩ := closeCycle_fields s (operated s)
  rw [hslot, hdcnt, Scripts.nextSlot_toNat, nextDcnt]
  simp only [← lastOfSlot_iff]
  split <;> rfl

/-! ### The bus register -/

/-- A new render slot's digit is taken from the time value after the edge. -/
theorem closeCycle_busR_of_render {s : State} {p : Position} (hlast : lastOfSlot s = true)
    (hpos : Position.ofSlot (nextSlot s) = some p) :
    (closeCycle s (operated s)).busR = digit p (closeCycle s (operated s)).time := by
  obtain ⟨htime, -, -, -, -, -, -, hbus, -⟩ := closeCycle_fields s (operated s)
  rw [hbus, if_pos hlast, hpos, htime]

theorem closeCycle_busR_kept {s : State} (h : ¬lastOfSlot s = true ∨ Position.ofSlot (nextSlot s) = none) :
    (closeCycle s (operated s)).busR = s.busR := by
  obtain ⟨-, -, -, -, -, -, -, hbus, -⟩ := closeCycle_fields s (operated s)
  rw [hbus, (operated_sameFrame s).busR]
  obtain hmid | hwin := h
  · rw [if_neg hmid]
  · rw [hwin, ite_self]

/-- Settles O41: the scan order is the table of R150, and the two rules for `bus_r` are those of the cycle's close. -/
theorem busLoadedAtSlotStart : Obligations.BusLoadedAtSlotStart := by
  refine ⟨⟨rfl, rfl, rfl, rfl, rfl, rfl, rfl⟩, fun s hlegal hpor => ?_⟩
  refine ⟨_, step_of_legal hlegal hpor, ?_⟩
  obtain ⟨-, -, -, -, hslot, -⟩ := closeCycle_fields s (operated s)
  rw [hslot]
  refine ⟨fun p hlast hpos => ?_, fun h => closeCycle_busR_kept ?_⟩
  · exact closeCycle_busR_of_render ((lastOfSlot_iff s).2 hlast) hpos
  · exact h.imp (mt (lastOfSlot_iff s).1) (fun hwin => by rw [hwin]; rfl)

/-! ### What writes the time value -/

/-- Outside the window neither the consumed tick nor a command acts. -/
theorem afterCommand_of_render {s : State} (h : s.slot ≠ 6#3) : afterCommand s = (s.time, s.dir) := by
  rw [afterCommand, if_neg h, afterTick, if_neg fun htick => h htick.1]

theorem operated_time_of_render {s : State} (hslot : s.slot ≠ 6#3) (hrst : ¬rstEdge s = true) :
    (operated s).time = s.time := by
  obtain ⟨htime, -⟩ := operated_fields s
  rw [htime, if_neg hrst, afterCommand_of_render hslot]

/-- Settles O43: in a render slot without a reset edge the cycle's operations leave the time value, which the close
never writes. -/
theorem timeChangesOnlyInWindowOrAtReset : Obligations.TimeChangesOnlyInWindowOrAtReset := by
  intro s t hpor hstep hchange
  obtain ⟨-, ⟨hp, -⟩ | ⟨-, -, rfl⟩⟩ := step_next_cases hstep
  · rw [hpor] at hp; cases hp
  · obtain ⟨hclose, -⟩ := closeCycle_fields s (operated s)
    rw [← TickGenerator.rstEdge_iff]
    by_contra hneither
    obtain ⟨hslot, hrst⟩ := not_or.1 hneither
    exact hchange (hclose.trans (operated_time_of_render hslot hrst))

/-! ### The frame law -/

/-- The sequencer is known from the place in the frame: in the render part slot and `dcnt` are quotient and remainder
by the dwell. -/
theorem sequencer_of_framePhase {s : State} (h : Legal s) :
    s.slot.toNat = (if framePhase s < 6 * s.cfg.dwell then framePhase s / s.cfg.dwell else 6) ∧
      s.dcnt = if framePhase s < 6 * s.cfg.dwell then framePhase s % s.cfg.dwell
        else framePhase s - 6 * s.cfg.dwell := by
  have hwindow := Scripts.slot_eq_six_iff h
  by_cases hrender : framePhase s < 6 * s.cfg.dwell
  · obtain ⟨hslot, hdcnt, -, -⟩ := registersLegal_bounds h.regs
    have hne : s.slot ≠ 6#3 := fun h6 => absurd (hwindow.1 h6) (by omega)
    have hlt : s.slot.toNat < 6 := lt_of_le_of_ne hslot fun heq => hne (BitVec.eq_of_toNat_eq heq)
    rw [Scripts.slotLength_eq, if_pos hlt] at hdcnt
    obtain ⟨hdiv, hmod⟩ := (Nat.div_mod_unique (a := framePhase s) (c := s.dcnt) (d := s.slot.toNat)
      (by omega : 0 < s.cfg.dwell)).2 ⟨by rw [framePhase, Nat.mul_comm, Nat.add_comm], hdcnt⟩
    rw [if_pos hrender, if_pos hrender]
    exact ⟨hdiv.symm, hmod.symm⟩
  · have h6 : s.slot = 6#3 := hwindow.2 (by omega)
    have hphase : framePhase s = 6 * s.cfg.dwell + s.dcnt := by rw [framePhase, h6]; rfl
    rw [if_neg hrender, if_neg hrender, hphase, h6]
    exact ⟨rfl, by omega⟩

/-- The consume cycle is the first place after the six render slots. -/
theorem consume_iff_framePhase {s : State} (h : Legal s) : consume s = true ↔ framePhase s = 6 * s.cfg.dwell := by
  rw [TickGenerator.consume_iff]
  constructor
  · rintro ⟨hslot, hdcnt⟩
    rw [framePhase, hslot, hdcnt]; rfl
  · intro hphase
    obtain ⟨-, hdcnt⟩ := sequencer_of_framePhase h
    rw [if_neg (by omega)] at hdcnt
    exact ⟨(Scripts.slot_eq_six_iff h).2 hphase.ge, by omega⟩

theorem framePhase_lt {s : State} (h : Legal s) : framePhase s < s.cfg.frame := by
  have hframe : s.cfg.frame = 6 * s.cfg.dwell + s.cfg.u := rfl
  obtain ⟨-, hlen, -, -⟩ := registersLegal_bounds h.regs
  obtain ⟨-, -, -, hu⟩ := Config.ok_bounds h.cfg
  by_cases hrender : framePhase s < 6 * s.cfg.dwell
  · omega
  · have h6 : s.slot = 6#3 := (Scripts.slot_eq_six_iff h).2 (by omega)
    have hwin : s.cfg.slotLength 6#3 = s.cfg.u := rfl
    obtain ⟨-, hdcnt⟩ := sequencer_of_framePhase h
    rw [if_neg hrender] at hdcnt
    rw [h6, hwin] at hlen
    omega

/-- Without POR the place in the frame counts the cycles, whatever else happens in them. -/
theorem framePhase_after {s : State} (hlegal : Legal s) (hnoPor : NoPor s) (k : Nat) :
    ∃ t, TickGenerator.Reached k s t ∧ framePhase t = (framePhase s + k) % s.cfg.frame := by
  induction k with
  | zero => exact ⟨s, .start hlegal hnoPor, (Nat.mod_eq_of_lt (framePhase_lt hlegal)).symm⟩
  | succ k ih =>
    obtain ⟨t, ht, hphase⟩ := ih
    obtain ⟨-, -, -, -, hslot, hdcnt, -⟩ := closeCycle_fields t (operated t)
    refine ⟨_, ht.next, ?_⟩
    rw [Scripts.framePhase_next ht.legal hslot hdcnt (Scripts.closeCycle_cfg t), ht.cfg, hphase, Nat.mod_add_mod,
      Nat.add_assoc]

/-- Cycle 0 starts legal: only the configuration comes from the state before it. -/
theorem porState_legal {s : State} (hcfg : s.cfg.ok = true) : Legal (advancePorts (porState s)) := by
  obtain ⟨hdiv, -, hdwell, -⟩ := Config.ok_bounds hcfg
  have hlen : 0 < s.cfg.slotLength 0#3 := hdwell
  refine ⟨hcfg, TimeValue.zero_legal, ?_⟩
  simp only [registersLegal, Bool.and_eq_true, decide_eq_true_eq]
  exact ⟨⟨⟨(by decide : 0#3 ≤ 6#3), hlen⟩, (by omega : 0 < s.cfg.tickDiv)⟩, (by decide : 0#4 ≤ 9#4)⟩

theorem porState_noPor {s : State} (h : ∀ p ∈ s.script, p.por = false) : NoPor (advancePorts (porState s)) := by
  refine ⟨?_, fun p hp => h p (List.mem_of_mem_tail hp)⟩
  rw [advancePorts_ports, nextPorts]
  split
  · next p ps hs => exact h p (hs ▸ List.mem_cons_self)
  · rfl

theorem porState_framePhase (s : State) : framePhase (advancePorts (porState s)) = 0 := Nat.zero_mul _

/-- Settles O52: cycle `n` after POR is at place `n mod FRAME`, from which the sequencer is known. -/
theorem frameLawFromPor : Obligations.FrameLawFromPor := by
  intro s n hcfg hpor hscript
  obtain ⟨t, ht, hphase⟩ := framePhase_after (porState_legal hcfg) (porState_noPor hscript) n
  have hcfg' : t.cfg = s.cfg := ht.cfg
  have hplace : framePhase t = n % s.cfg.frame := by rw [hphase, porState_framePhase, Nat.zero_add]; rfl
  obtain ⟨hslot, hdcnt⟩ := sequencer_of_framePhase ht.legal
  have hconsume := consume_iff_framePhase ht.legal
  rw [hplace, hcfg'] at hslot hdcnt hconsume
  exact ⟨t, (after_succ (step_of_por hcfg hpor)).2 ht.after, hslot, hdcnt, hconsume⟩

end Sys2Proof.Proofs.Multiplexer
end

section
/-! The statements of 43_host_controller.md: what the host's command cannot reach in the block (R184), the buttons
(R173), and the latch, `buzzerOn` and the buzzer line of the source's host (R178, R180, R181). -/

namespace Sys2Proof.Proofs.HostController

open Sys2Proof.Machine

/-! ### What the command cannot reach -/

/-- Pause and resume edges alone write the RunningState in a cycle. -/
theorem closeCycle_run (s : State) :
    (closeCycle s (operated s)).run = if rsmEdge s then true else if pseEdge s then false else s.run := by
  obtain ⟨-, -, hclose, -⟩ := closeCycle_fields s (operated s)
  obtain ⟨-, -, hops, -⟩ := operated_fields s
  rw [hclose, hops]

/-- The tick alone raises PendingTick in a cycle, and the consume cycle alone clears it. -/
theorem closeCycle_pend (s : State) :
    (closeCycle s (operated s)).pend = (tickOut s || (s.pend && !consume s)) := by
  obtain ⟨-, -, -, hclose, -⟩ := closeCycle_fields s (operated s)
  obtain ⟨-, -, -, hops, -⟩ := operated_fields s
  rw [hclose, hops]

/-- `s` with the code `c` on its command port. -/
def present (s : State) (c : CmdWord) : State := { s with ports := { s.ports with cmd := c } }

/-- Legality does not read the command port. -/
theorem present_legal {s : State} (h : Legal s) (c : CmdWord) : Legal (present s c) :=
  ⟨h.cfg, h.time, h.regs⟩

/-- Settles O46: each of these registers is known from an equation over the state before the edge, and the equation
reads the same whichever command stands on the port. -/
theorem hostCannotReachRunPendOrSequencer : Obligations.HostCannotReachRunPendOrSequencer := by
  intro s c hlegal hpor
  refine ⟨_, _, step_of_legal hlegal hpor, step_of_legal (present_legal hlegal c) hpor, ?run, ?pend, ?tcnt,
    rfl, rfl, rfl, rfl, rfl⟩
  case run => exact (closeCycle_run s).trans (closeCycle_run (present s c)).symm
  case pend => exact (closeCycle_pend s).trans (closeCycle_pend (present s c)).symm
  case tcnt => exact (TickGenerator.closeCycle_tcnt s).trans (TickGenerator.closeCycle_tcnt (present s c)).symm

/-! ### The buttons -/

theorem mem_allButtons (b : Button) : b ∈ Button.all := by
  cases b <;> decide

theorem mem_pollActions (l : HostLines) (a : ButtonBits) (b : Button) :
    b ∈ pollActions l a ↔ l.pressed b = true ∧ a.get b = true := by
  simp [pollActions, fires, mem_allButtons]

theorem pollArmed_get (l : HostLines) (a : ButtonBits) (b : Button) :
    (pollArmed l a).get b = armedAfter (l.pressed b) (a.get b) := by
  cases b <;> rfl

/-- What a poll leaves in a flag does not depend on the flag: Armed where the button is released, else Disarmed. -/
theorem armedAfter_eq (pressed armed : Bool) : armedAfter pressed armed = !pressed := by
  cases pressed with
  | false => rfl
  | true => cases armed <;> rfl

/-- After any number of polls, at least one, the flags are those of the lines. -/
theorem iterate_pollArmed_get (l : HostLines) (a : ButtonBits) (b : Button) (n : Nat) :
    ((pollArmed l)^[n + 1] a).get b = !l.pressed b := by
  rw [Function.iterate_succ_apply', pollArmed_get, armedAfter_eq]

/-- Settles O56: a poll disarms a pressed button whether its action fires or not, so no later poll finds it Armed. -/
theorem buttonActsOncePerPress : Obligations.ButtonActsOncePerPress := by
  refine ⟨fun l a b => ⟨mem_pollActions l a b, ?_⟩, fun l a b n hpressed hfires => ?_⟩
  · rw [pollArmed_get, armedAfter_eq]
    cases l.pressed b with
    | false => simp
    | true => cases a.get b <;> simp
  · obtain ⟨-, harmed⟩ := (mem_pollActions _ _ _).1 hfires
    rw [iterate_pollArmed_get, hpressed] at harmed
    cases harmed

/-! ### The latch and the buzzer line -/

theorem endIteration_latch (k : BuzzConfig) (c : Controller) (l : HostLines) (dir : Bool) :
    (c.endIteration k l dir).latch = (c.latch || !l.stopBuzzer) := by
  simp [Controller.endIteration]

theorem endIteration_buzzer (k : BuzzConfig) (c : Controller) (l : HostLines) (dir : Bool) :
    (c.endIteration k l dir).buzzer =
      ((c.endIteration k l dir).buzzerOn && !(c.endIteration k l dir).latch) := rfl

/-- An asserted (low) stop input sets the latch, which silences the buzzer. -/
theorem endIteration_of_stopBuzzer (k : BuzzConfig) (c : Controller) {l : HostLines} (dir : Bool)
    (h : l.stopBuzzer = false) :
    (c.endIteration k l dir).latch = true ∧ (c.endIteration k l dir).buzzer = false := by
  have hlatch : (c.endIteration k l dir).latch = true := by simp [endIteration_latch, h]
  exact ⟨hlatch, by simp [endIteration_buzzer, hlatch]⟩

/-- The host as its window cycle finds it: a pause and the result of the cycle before are seen first. -/
def seen (c : Controller) (o : Outputs) : Controller := (c.seePause o).seeDecrement o

/-- The last cycle of the window is the end of an iteration. -/
theorem cycle_of_last {k : BuzzConfig} {u : Nat} {c : Controller} {l : HostLines} {o : Outputs}
    (hwin : o.updWin = true) (hlast : u ≤ c.windowPos + 1) :
    (c.cycle k u l o).1 =
      ((seen c o).window k u l o).1.endIteration k l (o.dirAfter ((seen c o).window k u l o).2) := by
  have hnot : ¬c.windowPos + 1 < u := Nat.not_lt.mpr hlast
  simp [Controller.cycle, seen, hwin, hnot]

/-- In any other cycle the buzzer line holds. -/
theorem cycle_buzzer_of_not_last {k : BuzzConfig} {u : Nat} {c : Controller} {l : HostLines} {o : Outputs}
    (h : o.updWin = false ∨ c.windowPos + 1 < u) : (c.cycle k u l o).1.buzzer = c.buzzer := by
  cases hwin : o.updWin with
  | false => simp [Controller.cycle, hwin]
  | true =>
    have hlt : c.windowPos + 1 < u := h.resolve_left (by simp [hwin])
    simp [Controller.cycle, hwin, hlt]

/-- Settles O57: the last window cycle ends the iteration, which drives the line; no other cycle writes it. -/
theorem buzzerFollowsLatch : Obligations.BuzzerFollowsLatch := by
  refine ⟨fun k c l dir => ⟨endIteration_buzzer k c l dir, endIteration_of_stopBuzzer k c dir, fun h => ?_⟩,
    fun k u c l o => ⟨cycle_buzzer_of_not_last, fun hwin hlast => ?_⟩⟩
  · simp [endIteration_latch, h]
  · rw [cycle_of_last hwin hlast]
    exact ⟨endIteration_buzzer k _ l _, endIteration_of_stopBuzzer k _ _⟩

/-! ### The condition of the buzzer -/

theorem buzzerOnAfter_of_latch (on : Bool) (b a : TimeValue) : buzzerOnAfter true on b a = false := rfl

/-- Without the latch a decrement's result decides, and at `00:00:00` whether the decrement reached it. -/
theorem buzzerOnAfter_of_no_latch (on : Bool) (b a : TimeValue) :
    buzzerOnAfter false on b a =
      if a = TimeValue.zero then (if b = TimeValue.zero then on else true) else false := by
  by_cases ha : a = TimeValue.zero <;> by_cases hb : b = TimeValue.zero <;> simp [buzzerOnAfter, ha, hb]

/-- Settles O58: the four branches of the update. -/
theorem buzzerOnUpdate : Obligations.BuzzerOnUpdate := by
  intro latch on b a
  refine ⟨?_, ?_, ?_, ?_⟩
  · rintro rfl
    exact buzzerOnAfter_of_latch on b a
  · rintro rfl hb ha
    rw [buzzerOnAfter_of_no_latch, if_pos ha, if_neg hb]
  · rintro rfl ha
    rw [buzzerOnAfter_of_no_latch, if_neg ha]
  · rintro rfl hb ha
    rw [buzzerOnAfter_of_no_latch, if_pos ha, if_pos hb]

end Sys2Proof.Proofs.HostController
end

section
/-! The statements of 44_control_interrupts.md: the synchronisers of the pins (R201), the actions of the reset, pause and
resume edges (R205 to R207, R209), and that no other event writes the RunningState (R208). -/

namespace Sys2Proof.Proofs.ControlInterrupts

open Sys2Proof.Machine

/-! ### The synchronisers -/

theorem sample_eq (y : Synchroniser) (pin : Bool) : y.sample pin = ⟨pin, y.q1, y.q2⟩ := rfl

theorem hold_eq (pin : Bool) : Synchroniser.hold pin = ⟨pin, pin, pin⟩ := rfl

/-- Flops that all hold one level show no edge, and a POR cycle leaves those of every pin so. -/
theorem porState_no_edges (s : State) :
    rstEdge (advancePorts (porState s)) = false ∧ pseEdge (advancePorts (porState s)) = false ∧
      rsmEdge (advancePorts (porState s)) = false :=
  ⟨Synchroniser.hold_fell s.ports.pinRst, Synchroniser.hold_rose s.ports.pinPse,
    Synchroniser.hold_fell s.ports.pinRsm⟩

theorem outputs_pauseEvt {s : State} (hpor : s.ports.por = false) : (outputs s).pauseEvt = pseEdge s := by
  rw [Multiplexer.outputs_of_no_por hpor, outputsRunning]

/-- Settles O39: a cycle without POR ends in a sampling of the pins, a POR cycle loads their levels, which is no edge. -/
theorem synchronisersShift : Obligations.SynchronisersShift := by
  intro s hlegal
  by_cases hpor : s.ports.por = true
  · obtain ⟨hrst, hpse, hrsm⟩ := porState_no_edges s
    refine ⟨_, step_of_por hlegal.cfg hpor, fun hno => ?_, fun _ => ?_⟩
    · rw [hpor] at hno; cases hno
    · exact ⟨hold_eq _, hold_eq _, hold_eq _, (outputs_pauseEvt rfl).trans hpse, hrst, hpse, hrsm⟩
  · have hno := Bool.eq_false_of_not_eq_true hpor
    obtain ⟨-, -, -, -, -, -, -, -, hrst, hpse, hrsm, -⟩ := closeCycle_fields s (operated s)
    refine ⟨_, step_of_legal hlegal hno, fun _ => ?_, fun h => absurd h hpor⟩
    rw [hrst, hpse, hrsm]
    exact ⟨sample_eq _ _, sample_eq _ _, sample_eq _ _⟩

/-! ### The RunningState -/

/-- The RunningState after a step without POR: a resume edge wins over a pause edge, and nothing else writes it. -/
theorem step_run {s t : State} (hpor : s.ports.por = false) (h : step s = .next t) :
    t.run = if rsmEdge s then true else if pseEdge s then false else s.run := by
  obtain ⟨-, ⟨hp, -⟩ | ⟨-, -, rfl⟩⟩ := step_next_cases h
  · rw [hpor] at hp; cases hp
  · exact HostController.closeCycle_run s

/-- Settles O45, by the edges of the cycle: without any the RunningState stays. -/
theorem runChangesOnlyByPauseAndResume : Obligations.RunChangesOnlyByPauseAndResume := by
  intro s t hpor hstep hchange
  rw [step_run hpor hstep] at hchange ⊢
  split_ifs at hchange ⊢ with hrsm hpse
  · exact .inr ⟨hrsm, rfl⟩
  · exact .inl ⟨hpse, Bool.eq_false_of_not_eq_true hrsm, rfl⟩
  · exact absurd rfl hchange

/-! ### The actions of the edges -/

theorem pseEdge_iff (s : State) : pseEdge s = true ↔ s.syncPse.h = false ∧ s.syncPse.q2 = true := by
  simp [pseEdge, Synchroniser.rose]

theorem rsmEdge_iff (s : State) : rsmEdge s = true ↔ s.syncRsm.h = true ∧ s.syncRsm.q2 = false := by
  simp [rsmEdge, Synchroniser.fell]

theorem effect_extReset (s : State) :
    effect .extReset s =
      if s.syncRst.h = true ∧ s.syncRst.q2 = false then { s with time := ⟨0#5, 0#6, 0#6⟩, tcnt := 0 } else s := by
  simp only [effect, TickGenerator.rstEdge_iff, State.setTime, State.setTcnt, TimeValue.zero]

theorem effect_extPause (s : State) :
    effect .extPause s =
      { s with run := if s.syncPse.h = false ∧ s.syncPse.q2 = true then false else s.run } := by
  simp only [effect, runAfterPause, pseEdge_iff, State.setRun]

theorem effect_extResume (s : State) :
    effect .extResume s =
      { s with run := if s.syncRsm.h = true ∧ s.syncRsm.q2 = false then true else s.run } := by
  simp only [effect, runAfterResume, rsmEdge_iff, State.setRun]

/-- A reset edge suppresses the tick output (R102); in a POR cycle there is none. -/
theorem outputs_tickOut_of_rstEdge {s : State} (h : rstEdge s = true) : (outputs s).tickOut = false := by
  cases hpor : s.ports.por with
  | true => rw [Multiplexer.outputs_of_por hpor, Outputs.duringPor]
  | false => rw [TickGenerator.outputs_tickOut hpor, tickOut, h, Bool.not_true, Bool.and_false]

/-- Settles O24, from the effect of EXT_RESET. -/
theorem resetEdgeZeroesTimeAndTickCounter : Obligations.ResetEdgeZeroesTimeAndTickCounter := by
  refine ⟨fun s htime => ?_, fun s hh hq2 => ?_⟩
  · rw [exec_of_legal _ htime, effect_extReset]
  · exact outputs_tickOut_of_rstEdge ((TickGenerator.rstEdge_iff s).2 ⟨hh, hq2⟩)

/-- Settles O25, from the effect of EXT_PAUSE; `pause_evt` is the edge itself, whatever `run` is (R209). -/
theorem pauseEdgeStops : Obligations.PauseEdgeStops := by
  refine ⟨fun s htime => ?_, fun s hpor => ?_⟩
  · rw [exec_of_legal _ htime, effect_extPause]
  · rw [outputs_pauseEvt hpor, pseEdge_iff]

/-- On a resume edge the pause that comes before it in the cycle does not show in the RunningState. -/
theorem effect_extResume_effect_extPause {s : State} (h : s.syncRsm.h = true ∧ s.syncRsm.q2 = false) :
    effect .extResume (effect .extPause s) = { s with run := true } := by
  rw [effect_extPause, effect_extResume, if_pos h]

/-- Settles O26, from the effect of EXT_RESUME, alone and after a pause. -/
theorem resumeEdgeRuns : Obligations.ResumeEdgeRuns := by
  refine fun s htime => ⟨?_, fun hh hq2 => ?_⟩
  · rw [exec_of_legal _ htime, effect_extResume]
  · refine ⟨_, _, exec_of_legal _ htime, exec_of_legal _ (effect_time_legal _ s htime), ?_⟩
    rw [effect_extResume_effect_extPause ⟨hh, hq2⟩]
    exact ⟨rfl, rfl⟩

end Sys2Proof.Proofs.ControlInterrupts
end

section
/-! The statements of 45_cycle_step.md: the step as the chain of its operations (R223), the equations of the cycle
(R220), the POR step (R221), the outputs (R222), the invariants (R224) and one whole frame (R225). -/

namespace Sys2Proof.Proofs.CycleStep

open Sys2Proof.Machine
open TickGenerator (Reached)

/-! ### What every step keeps -/

theorem lastOfSlot_of_nextDcnt_eq_zero {s : State} (h : nextDcnt s = 0) : lastOfSlot s = true := by
  by_contra hmid
  rw [nextDcnt, if_neg hmid] at h
  cases h

/-- Cycle 0 has the invariants: its slot shows the ones place of 00:00:00. -/
theorem porState_inv {s : State} (hcfg : s.cfg.ok = true) : Inv (advancePorts (porState s)) where
  toLegal := Multiplexer.porState_legal hcfg
  bus := fun _ hpos _ => by cases hpos; rfl

/-- A cycle of a legal state leaves the invariants: a slot's first cycle is the one after a slot's last, which loads
the bus register. -/
theorem closeCycle_inv {s : State} (h : Legal s) : Inv (closeCycle s (operated s)) where
  toLegal := Scripts.closeCycle_legal h
  bus := fun _ hpos hfirst =>
    Multiplexer.closeCycle_busR_of_render (lastOfSlot_of_nextDcnt_eq_zero hfirst) hpos

/-- Settles O30, by the two kinds of step: a POR cycle and a cycle without POR. -/
theorem everyStepKeepsTheInvariants : Obligations.EveryStepKeepsTheInvariants := by
  intro s t _ hstep
  obtain ⟨hcfg, ⟨-, rfl⟩ | ⟨-, hlegal, rfl⟩⟩ := step_next_cases hstep
  · exact porState_inv hcfg
  · exact closeCycle_inv hlegal

/-! ### The chain of operations -/

/-- Settles O7: each operation keeps the time value valid, so the next one has its effect, and together the six are the
operations of the cycle. -/
theorem stepChainsTheOperationsInOrder : Obligations.StepChainsTheOperationsInOrder := by
  intro s hlegal hpor
  have h1 := effect_time_legal .tickApply s hlegal.time
  have h2 := effect_time_legal (decodeCmd s.ports.cmd) _ h1
  have h3 := effect_time_legal .tickWrap _ h2
  have h4 := effect_time_legal .extReset _ h3
  have h5 := effect_time_legal .extPause _ h4
  exact ⟨_, _, _, _, _, _, exec_of_legal _ hlegal.time, exec_of_legal _ h1, exec_of_legal _ h2, exec_of_legal _ h3,
    exec_of_legal _ h4, exec_of_legal _ h5, step_of_legal hlegal hpor⟩

/-- Settles O5: without an event the command is the one operation of the cycle. -/
theorem stepRunsTheDecodedCommand : Obligations.StepRunsTheDecodedCommand := by
  intro s t i hlegal hpor hno hdecode hexec
  obtain ⟨-, rfl⟩ := exec_next hexec
  obtain rfl : decodeCmd s.ports.cmd = i := Except.ok.inj hdecode
  have hagenda : agenda s = [decodeCmd s.ports.cmd] := by rw [agenda, hno]; rfl
  rw [step_of_legal hlegal hpor, ← foldl_agenda, hagenda]
  rfl

/-- NOP between the events of a cycle changes nothing. -/
theorem foldl_effect_agendaOf_nop (w : EvtWord) (s : State) :
    (agendaOf w 0#4).foldl (fun t i => effect i t) s = (decodeEvents w).foldl (fun t i => effect i t) s := by
  rw [agendaOf, decodeEvents, List.foldl_append, List.foldl_append, List.foldl_cons]
  rfl

/-- Settles O6: with NOP on the port the event is the one operation of the cycle that has an effect. -/
theorem stepRunsTheDecodedEvent : Obligations.StepRunsTheDecodedEvent := by
  intro s t e hlegal hpor hnop hdecode hexec
  obtain ⟨-, rfl⟩ := exec_next hexec
  rw [step_of_legal hlegal hpor, ← foldl_agenda, agenda, hnop, foldl_effect_agendaOf_nop,
    Encoding.decode_evt_ok hdecode]
  rfl

/-! ### The equations of a cycle -/

/-- The time value of R220: the tick, then the command, and over both the reset edge. -/
theorem closeCycle_time (s : State) :
    (closeCycle s (operated s)).time = if rstEdge s then TimeValue.zero else (afterCommand s).1 := by
  obtain ⟨hclose, -⟩ := closeCycle_fields s (operated s)
  obtain ⟨hops, -⟩ := operated_fields s
  rw [hclose, hops]

/-- The Mode of R220 is the command's. -/
theorem closeCycle_dir (s : State) : (closeCycle s (operated s)).dir = (afterCommand s).2 := by
  obtain ⟨-, hclose, -⟩ := closeCycle_fields s (operated s)
  obtain ⟨-, hops, -⟩ := operated_fields s
  rw [hclose, hops]

/-- While Running the wrap is the last value of the counter. -/
theorem ite_wrap (s : State) (a b c : Nat) :
    (if s.run = true then (if wrap s = true then a else b) else c) =
      if s.run = true then (if s.tcnt = s.cfg.tickDiv - 1 then a else b) else c := by
  by_cases hrun : s.run = true
  · simp [wrap, hrun]
  · rw [if_neg hrun, if_neg hrun]

/-- The sequencer of R153, as one equation for both registers. -/
theorem closeCycle_sequencer (s : State) :
    ((closeCycle s (operated s)).slot.toNat, (closeCycle s (operated s)).dcnt) =
      if lastOfSlot s = true then ((s.slot.toNat + 1) % 7, 0) else (s.slot.toNat, s.dcnt + 1) := by
  obtain ⟨-, -, -, -, hslot, hdcnt, -⟩ := closeCycle_fields s (operated s)
  rw [hslot, hdcnt, Scripts.nextSlot_toNat, nextDcnt]
  split <;> rfl

/-- The bus register of R155 where the next cycle is one of a render slot. -/
theorem closeCycle_busR_of_ofSlot {s : State} {p : Position}
    (hpos : Position.ofSlot (closeCycle s (operated s)).slot = some p) :
    (closeCycle s (operated s)).busR =
      if lastOfSlot s = true then digit p (closeCycle s (operated s)).time else s.busR := by
  by_cases hlast : lastOfSlot s = true
  · rw [if_pos hlast]
    exact Multiplexer.closeCycle_busR_of_render hlast hpos
  · rw [if_neg hlast]
    exact Multiplexer.closeCycle_busR_kept (.inl hlast)

/-- Settles O29, register by register; the conditions of R220 are those the operations of the cycle are gated by. -/
theorem stepObeysTheCycleEquations : Obligations.StepObeysTheCycleEquations := by
  intro s hlegal hpor
  refine ⟨_, step_of_legal hlegal hpor, closeCycle_time s, closeCycle_dir s, ?tcnt, HostController.closeCycle_run s,
    HostController.closeCycle_pend s, rfl, rfl, rfl, ?sequencer, ?bus, Scripts.closeCycle_cfg s⟩
  case tcnt =>
    rw [TickGenerator.closeCycle_tcnt, ← ite_wrap]
    rfl
  case sequencer =>
    rw [closeCycle_sequencer]
    simp only [Multiplexer.lastOfSlot_iff]
  case bus =>
    cases hpos : Position.ofSlot (closeCycle s (operated s)).slot with
    | none => exact Multiplexer.closeCycle_busR_kept (.inr hpos)
    | some p =>
      rw [closeCycle_busR_of_ofSlot hpos]
      simp only [Multiplexer.lastOfSlot_iff]

/-- Settles O42, by the equations of the cycle: each clause is one of their branches. -/
theorem sameCycleEffectsCombineInOrder : Obligations.SameCycleEffectsCombineInOrder := by
  intro s hlegal hpor
  refine ⟨_, step_of_legal hlegal hpor, ?_⟩
  rw [closeCycle_time, closeCycle_dir, StateRegisters.afterCommand_dir, TickGenerator.closeCycle_tcnt,
    HostController.closeCycle_run, HostController.closeCycle_pend, TickGenerator.outputs_tickOut hpor]
  refine ⟨fun hrst => ⟨if_pos hrst, if_pos hrst, ?noTick⟩, fun hrst => ?time, fun hwin htgl => if_pos ⟨hwin, htgl⟩,
    fun hno => if_neg hno, fun hrsm => if_pos hrsm, fun hrsm hpse => ?pause, fun htick => ?newTick,
    fun htick hconsume => ?consumed⟩
  case noTick => simp [tickOut, hrst]
  case time => simp [hrst]
  case pause => simp [hrsm, hpse]
  case newTick => simp [htick]
  case consumed => simp [htick, hconsume]

/-- Settles O32: the POR state is written out by R260, and the inputs of the next cycle are no register. -/
theorem porStepGivesThePorState : Obligations.PorStepGivesThePorState := fun s hcfg hpor =>
  ⟨advancePorts (porState s), step_of_por hcfg hpor, rfl, rfl, rfl, rfl, rfl, rfl, rfl, rfl, rfl, rfl, rfl, rfl⟩

/-! ### The outputs -/

/-- Settles O34: without POR the outputs are those of `outputsRunning`, which reads registers alone. -/
theorem outputsShowTheState : Obligations.OutputsShowTheState := by
  refine ⟨fun s hpor => ?_, fun s p q hp hq => ?_⟩
  · rw [Multiplexer.outputs_of_no_por hpor]
    exact ⟨fun k hk => Multiplexer.getLsbD_enableLines s.slot k hk, rfl, rfl, rfl, rfl, rfl, rfl, rfl, rfl, rfl, rfl,
      rfl, rfl⟩
  · rw [Multiplexer.outputs_of_no_por hp, Multiplexer.outputs_of_no_por hq]
    rfl

/-! ### One render slot -/

/-- The slots of R150 that have a position are the render slots. -/
theorem exists_ofSlot_iff (slot : BitVec 3) : (∃ p, Position.ofSlot slot = some p) ↔ slot.toNat < 6 := by
  have hsome : ∀ b : BitVec 3, (Position.ofSlot b).isSome = true ↔ b.toNat < 6 := by decide
  rw [← hsome, Option.isSome_iff_exists]

/-- Within a slot a cycle counts `dcnt` up and keeps the slot and the bus register. -/
theorem closeCycle_of_not_lastOfSlot {s : State} (h : ¬lastOfSlot s = true) :
    (closeCycle s (operated s)).slot = s.slot ∧ (closeCycle s (operated s)).dcnt = s.dcnt + 1 ∧
      (closeCycle s (operated s)).busR = s.busR := by
  obtain ⟨-, -, -, -, hslot, hdcnt, -⟩ := closeCycle_fields s (operated s)
  exact ⟨hslot.trans (if_neg h), hdcnt.trans (if_neg h), Multiplexer.closeCycle_busR_kept (.inl h)⟩

/-- From the first cycle of a render slot the cycles of the slot are counted, with the bus register as it was. -/
theorem reached_in_slot {s : State} (hlegal : Legal s) (hnoPor : NoPor s) (hfirst : s.dcnt = 0)
    (hrender : s.slot.toNat < 6) (j : Nat) (hj : j < s.cfg.dwell) :
    ∃ t, Reached j s t ∧ t.slot = s.slot ∧ t.dcnt = j ∧ t.busR = s.busR := by
  induction j with
  | zero => exact ⟨s, .start hlegal hnoPor, rfl, hfirst, rfl⟩
  | succ j ih =>
    obtain ⟨t, ht, hslot, hdcnt, hbus⟩ := ih (by omega)
    have hmid : ¬lastOfSlot t = true := by
      rw [Multiplexer.lastOfSlot_iff, hslot, if_pos hrender, ht.cfg, hdcnt]
      omega
    obtain ⟨hslot', hdcnt', hbus'⟩ := closeCycle_of_not_lastOfSlot hmid
    exact ⟨_, ht.next, hslot'.trans hslot, by rw [hdcnt', hdcnt], hbus'.trans hbus⟩

/-- Settles O51: the slot's first cycle shows the digit, and within the slot nothing loads the bus register. -/
theorem displayHoldsTheSlotDigit : Obligations.DisplayHoldsTheSlotDigit := by
  intro s p j hinv hnoPor hfirst hpos hj
  obtain ⟨t, ht, hslot, hdcnt, hbus⟩ :=
    reached_in_slot hinv.toLegal hnoPor hfirst ((exists_ofSlot_iff _).1 ⟨p, hpos⟩) j hj
  exact ⟨t, ht.after, hslot, hdcnt, hbus.trans (hinv.bus p hpos hfirst)⟩

/-! ### One frame -/

theorem reached_unique {k : Nat} {s t u : State} (h : Reached k s t) (hu : Reached k s u) :
    t = u :=
  after_det h.after hu.after

/-- The commands are presented in the order of the script, and NOP after its end. -/
theorem inputs_after {s : State} (hlegal : Legal s) (hnoPor : NoPor s) (n : Nat) :
    ∃ t, Reached n s t ∧ t.script = s.script.drop n ∧ t.ports.cmd = cmdAfter s n := by
  induction n with
  | zero => exact ⟨s, .start hlegal hnoPor, rfl, rfl⟩
  | succ n ih =>
    obtain ⟨t, ht, hscript, -⟩ := ih
    obtain ⟨hports', hscript'⟩ := closeCycle_inputs t (operated t)
    have hops : (operated t).script = s.script.drop n := (operated_sameFrame t).script.trans hscript
    refine ⟨_, ht.next, ?_, ?_⟩
    · rw [hscript', hops, List.tail_drop]
    · rw [hports', nextPorts, hops, cmdAfter]
      cases hn : s.script[n]? with
      | none => rw [List.drop_eq_nil_of_le (List.getElem?_eq_none_iff.1 hn)]
      | some p =>
        obtain ⟨hlt, rfl⟩ := List.getElem?_eq_some_iff.1 hn
        rw [List.drop_eq_getElem_cons hlt]

/-- No pin has an edge in this cycle. -/
def noEdges (t : State) : Bool := !rstEdge t && !pseEdge t && !rsmEdge t

/-- The time value and the Mode `x` after the `k` commands presented from cycle `n` on. -/
def afterCommands (s : State) (n k : Nat) (x : TimeValue × Bool) : TimeValue × Bool :=
  (List.range k).foldl (fun td i => cmdApply (cmdAfter s (n + i)) td.1 td.2) x

theorem afterCommands_succ (s : State) (n k : Nat) (x : TimeValue × Bool) :
    afterCommands s n (k + 1) x =
      cmdApply (cmdAfter s (n + k)) (afterCommands s n k x).1 (afterCommands s n k x).2 := by
  rw [afterCommands, List.range_succ, List.foldl_append]
  rfl

/-- The bus register shows the slot's digit of the present time value. -/
def Shown (s : State) : Prop := ∀ p, Position.ofSlot s.slot = some p → s.busR = digit p s.time

/-- Outside the window a cycle without a reset edge keeps the time value and the Mode. -/
theorem closeCycle_timeAndMode_of_render {s : State} (hslot : s.slot ≠ 6#3) (hrst : ¬rstEdge s = true) :
    (closeCycle s (operated s)).time = s.time ∧ (closeCycle s (operated s)).dir = s.dir := by
  rw [closeCycle_time, if_neg hrst, closeCycle_dir, Multiplexer.afterCommand_of_render hslot]
  exact ⟨rfl, rfl⟩

/-- In the window a cycle without a reset edge applies its tick and then its command. -/
theorem closeCycle_timeAndMode_of_window {s : State} (hslot : s.slot = 6#3) (hrst : ¬rstEdge s = true) :
    ((closeCycle s (operated s)).time, (closeCycle s (operated s)).dir) =
      cmdApply s.ports.cmd (afterTick s) s.dir := by
  rw [closeCycle_time, if_neg hrst, closeCycle_dir, afterCommand, if_pos hslot]

/-- A new slot loads its digit, and within a render slot the time value stands unless a reset edge writes it. -/
theorem Shown.next {s : State} (h : Shown s) (hrst : ¬rstEdge s = true) : Shown (closeCycle s (operated s)) := by
  intro p hpos
  by_cases hlast : lastOfSlot s = true
  · exact Multiplexer.closeCycle_busR_of_render hlast hpos
  · obtain ⟨hslot, -, hbus⟩ := closeCycle_of_not_lastOfSlot hlast
    rw [hslot] at hpos
    have hrender : s.slot ≠ 6#3 := by
      rintro h6
      rw [h6] at hpos
      cases hpos
    obtain ⟨htime, -⟩ := closeCycle_timeAndMode_of_render hrender hrst
    rw [hbus, htime]
    exact h p hpos

/-- The first cycle of a frame that has no edges and no POR in it. -/
structure FrameStart (s : State) : Prop where
  inv : Inv s
  noPor : NoPor s
  slot : s.slot = 0#3
  dcnt : s.dcnt = 0
  edges : holdsFor noEdges s.cfg.frame s = true

theorem FrameStart.shown {s : State} (h : FrameStart s) : Shown s := fun p hpos => h.inv.bus p hpos h.dcnt

theorem FrameStart.noReset {s t : State} {k : Nat} (h : FrameStart s) (hk : k < s.cfg.frame)
    (ht : Reached k s t) : ¬rstEdge t = true := by
  have hno := holdsFor_at h.edges hk ht.after
  simp only [noEdges, Bool.and_eq_true, Bool.not_eq_true'] at hno
  simp [hno]

theorem FrameStart.framePhase_eq {s t : State} {k : Nat} (h : FrameStart s) (ht : Reached k s t) :
    framePhase t = k % s.cfg.frame := by
  obtain ⟨u, hu, hphase⟩ := Multiplexer.framePhase_after h.inv.toLegal h.noPor k
  have hstart : framePhase s = 0 := by rw [framePhase, h.slot, h.dcnt]; exact Nat.zero_mul _
  rw [reached_unique ht hu, hphase, hstart, Nat.zero_add]

/-- A frame is in its window from the end of its six render slots on. -/
theorem FrameStart.slot_eq_six_iff {s t : State} {k : Nat} (h : FrameStart s) (hk : k < s.cfg.frame)
    (ht : Reached k s t) : t.slot = 6#3 ↔ 6 * s.cfg.dwell ≤ k := by
  rw [Scripts.slot_eq_six_iff ht.legal, h.framePhase_eq ht, Nat.mod_eq_of_lt hk, ht.cfg]

theorem FrameStart.consume_iff {s t : State} {k : Nat} (h : FrameStart s) (ht : Reached k s t) :
    consume t = true ↔ k % s.cfg.frame = 6 * s.cfg.dwell := by
  rw [Multiplexer.consume_iff_framePhase ht.legal, h.framePhase_eq ht, ht.cfg]

/-- Through the render slots the time value and the Mode stand, and each slot shows its digit. -/
theorem FrameStart.render {s : State} (h : FrameStart s) (k : Nat) (hk : k ≤ 6 * s.cfg.dwell) :
    ∃ t, Reached k s t ∧ t.time = s.time ∧ t.dir = s.dir ∧ Shown t := by
  induction k with
  | zero => exact ⟨s, .start h.inv.toLegal h.noPor, rfl, rfl, h.shown⟩
  | succ k ih =>
    obtain ⟨t, ht, htime, hdir, hshown⟩ := ih (by omega)
    have hframe : s.cfg.frame = 6 * s.cfg.dwell + s.cfg.u := rfl
    have hlt : k < s.cfg.frame := by omega
    have hrst := h.noReset hlt ht
    have hrender : t.slot ≠ 6#3 := fun h6 => absurd ((h.slot_eq_six_iff hlt ht).1 h6) (by omega)
    obtain ⟨htime', hdir'⟩ := closeCycle_timeAndMode_of_render hrender hrst
    exact ⟨_, ht.next, htime'.trans htime, hdir'.trans hdir, hshown.next hrst⟩

/-- Only the consume cycle has a tick to apply. -/
theorem afterTick_of_not_consume {s : State} (h : ¬consume s = true) : afterTick s = s.time :=
  if_neg fun ⟨hslot, hdcnt, _⟩ => h ((TickGenerator.consume_iff s).2 ⟨hslot, hdcnt⟩)

theorem afterTick_of_consume {s : State} (h : consume s = true) :
    afterTick s = if s.pend = true then (if s.dir = false then s.time.incS else s.time.decS) else s.time := by
  obtain ⟨hslot, hdcnt⟩ := (TickGenerator.consume_iff s).1 h
  simp only [afterTick, hslot, hdcnt, true_and]

/-- From the consume cycle on the commands of the window apply in turn, the first of them after the tick. -/
theorem FrameStart.window {s c : State} (h : FrameStart s) (hc : Reached (6 * s.cfg.dwell) s c) (k : Nat)
    (hk : k ≤ s.cfg.u) :
    ∃ t, Reached (6 * s.cfg.dwell + k) s t ∧
      (afterTick t, t.dir) = afterCommands s (6 * s.cfg.dwell) k (afterTick c, c.dir) := by
  induction k with
  | zero => exact ⟨c, hc, rfl⟩
  | succ k ih =>
    obtain ⟨t, ht, hval⟩ := ih (by omega)
    have hframe : s.cfg.frame = 6 * s.cfg.dwell + s.cfg.u := rfl
    obtain ⟨-, -, hdwell, -⟩ := Config.ok_bounds h.inv.cfg
    have hlt : 6 * s.cfg.dwell + k < s.cfg.frame := by omega
    have hwindow : t.slot = 6#3 := (h.slot_eq_six_iff hlt ht).2 (by omega)
    have hcmd : t.ports.cmd = cmdAfter s (6 * s.cfg.dwell + k) := by
      obtain ⟨u, hu, -, hcmd⟩ := inputs_after h.inv.toLegal h.noPor (6 * s.cfg.dwell + k)
      rw [reached_unique ht hu, hcmd]
    have hnext : ¬consume (closeCycle t (operated t)) = true := by
      rw [h.consume_iff ht.next]
      obtain hmid | hend : 6 * s.cfg.dwell + k + 1 < s.cfg.frame ∨ 6 * s.cfg.dwell + k + 1 = s.cfg.frame := by omega
      · rw [Nat.mod_eq_of_lt hmid]; omega
      · rw [hend, Nat.mod_self]; omega
    refine ⟨_, ht.next, ?_⟩
    rw [afterTick_of_not_consume hnext, closeCycle_timeAndMode_of_window hwindow (h.noReset hlt ht), hcmd,
      afterCommands_succ, ← hval]

theorem FrameStart.exists_position {s t : State} {k : Nat} (h : FrameStart s) (hk : k < 6 * s.cfg.dwell)
    (ht : Reached k s t) : ∃ p, Position.ofSlot t.slot = some p := by
  have hframe : s.cfg.frame = 6 * s.cfg.dwell + s.cfg.u := rfl
  obtain ⟨hle, -, -, -⟩ := registersLegal_bounds ht.legal.regs
  have hne : t.slot.toNat ≠ 6 := fun h6 =>
    absurd ((h.slot_eq_six_iff (by omega) ht).1 (BitVec.eq_of_toNat_eq h6)) (by omega)
  exact (exists_ofSlot_iff t.slot).2 (by omega)

/-- After its last cycle the frame starts again. -/
theorem FrameStart.sequencer_restarts {s t : State} (h : FrameStart s) (ht : Reached s.cfg.frame s t) :
    t.slot = 0#3 ∧ t.dcnt = 0 := by
  obtain ⟨-, -, hdwell, -⟩ := Config.ok_bounds h.inv.cfg
  obtain ⟨hslot, hdcnt⟩ := Multiplexer.sequencer_of_framePhase ht.legal
  have hrender : 0 < 6 * s.cfg.dwell := by omega
  rw [h.framePhase_eq ht, Nat.mod_self, ht.cfg, if_pos hrender] at hslot hdcnt
  rw [Nat.zero_div] at hslot
  exact ⟨BitVec.eq_of_toNat_eq hslot, hdcnt.trans (Nat.zero_mod _)⟩

/-- Settles O55: the render slots keep the time value and show it, the window applies the tick and its commands, and
the frame's end is the next one's start. -/
theorem frameAppliesTickThenCommands : Obligations.FrameAppliesTickThenCommands := by
  intro s hinv hnoPor hslot hdcnt hedges
  have h : FrameStart s := ⟨hinv, hnoPor, hslot, hdcnt, hedges⟩
  refine ⟨fun j hj => ?_, ?_⟩
  · obtain ⟨t, ht, htime, hdir, hshown⟩ := h.render j hj.le
    obtain ⟨p, hpos⟩ := h.exists_position hj ht
    exact ⟨t, p, ht.after, htime, hdir, hpos, by rw [hshown p hpos, htime]⟩
  · have hframe : s.cfg.frame = 6 * s.cfg.dwell + s.cfg.u := rfl
    obtain ⟨-, -, hdwell, hu⟩ := Config.ok_bounds hinv.cfg
    obtain ⟨c, hc, htime, hdir, -⟩ := h.render _ le_rfl
    obtain ⟨t, ht, hval⟩ := h.window hc _ le_rfl
    have hconsume : consume c = true := (h.consume_iff hc).2 (Nat.mod_eq_of_lt (by omega))
    rw [← hframe] at ht
    have hended : ¬consume t = true := by
      rw [h.consume_iff ht, Nat.mod_self]
      omega
    obtain ⟨hslot', hdcnt'⟩ := h.sequencer_restarts ht
    refine ⟨c, t, hc.after, hconsume, ht.after, hslot', hdcnt', ?_⟩
    rw [afterTick_of_not_consume hended, afterTick_of_consume hconsume, htime, hdir] at hval
    exact hval

end Sys2Proof.Proofs.CycleStep
end

section
/-! The statements of 70_reset_and_hazards.md: the reset state and the outputs during POR (R260, R261), the parameter
checks (R265), the latency of the pins (R270), and that no tick is lost (R279). -/

namespace Sys2Proof.Proofs.ResetAndHazards

open Sys2Proof.Machine
open TickGenerator (Reached)

/-! ### The distance of two ticks -/

/-- The rest of a run is a run from the state in its midst. -/
theorem after_of_after_add {j k : Nat} {t u : State} : ∀ {s : State}, After j s t → After (j + k) s u → After k t u := by
  induction j with
  | zero =>
    intro s hfirst hall
    obtain rfl := after_zero.1 hfirst
    rwa [Nat.zero_add] at hall
  | succ j ih =>
    intro s hfirst hall
    obtain ⟨v, hstep, hfirst'⟩ := after_first hfirst
    rw [Nat.succ_add, after_succ hstep] at hall
    exact ih hfirst' hall

/-- A run has one state only in each cycle, the one that `Reached` speaks of. -/
theorem reached_of_after {k : Nat} {s t : State} (hlegal : Legal s) (hnoPor : NoPor s) (h : After k s t) :
    Reached k s t := by
  obtain ⟨u, hu, -⟩ := Multiplexer.framePhase_after hlegal hnoPor k
  rwa [after_det h hu.after]

theorem closeCycle_tcnt_le (s : State) : (closeCycle s (operated s)).tcnt ≤ s.tcnt + 1 := by
  rw [TickGenerator.closeCycle_tcnt]
  split_ifs <;> omega

/-- Pauses and resets only delay the count, so a count takes at least as many cycles as it shows. -/
theorem tcnt_after_le {s : State} (hlegal : Legal s) (hnoPor : NoPor s) (k : Nat) :
    ∃ t, Reached k s t ∧ t.tcnt ≤ s.tcnt + k := by
  induction k with
  | zero => exact ⟨s, .start hlegal hnoPor, le_rfl⟩
  | succ k ih =>
    obtain ⟨t, ht, hle⟩ := ih
    have hnext := closeCycle_tcnt_le t
    exact ⟨_, ht.next, by omega⟩

/-- After a tick the count starts from 0 again. -/
theorem closeCycle_tcnt_of_tickOut {s : State} (h : tickOut s = true) : (closeCycle s (operated s)).tcnt = 0 := by
  obtain ⟨hwrap, hrst⟩ := (TickGenerator.tickOut_iff s).1 h
  obtain ⟨hrun, hlast⟩ := (TickGenerator.wrap_iff s).1 hwrap
  rw [TickGenerator.closeCycle_tcnt, if_neg hrst, if_pos hrun, if_pos hlast]

/-- With pauses and resets as they come, the next tick is a whole period away at least. -/
theorem tickDiv_le_of_ticks {a b : State} {n : Nat} (hlegal : Legal a) (hnoPor : NoPor a) (ha : tickOut a = true)
    (h : After n (closeCycle a (operated a)) b) (hb : tickOut b = true) : a.cfg.tickDiv ≤ n + 1 := by
  obtain ⟨t, ht, hle⟩ := tcnt_after_le (Scripts.closeCycle_legal hlegal) (TickGenerator.closeCycle_noPor hnoPor) n
  obtain rfl := after_det h ht.after
  obtain ⟨-, hlast⟩ := (TickGenerator.wrap_iff b).1 ((TickGenerator.tickOut_iff b).1 hb).1
  rw [closeCycle_tcnt_of_tickOut ha] at hle
  rw [ht.cfg, Scripts.closeCycle_cfg] at hlast
  omega

/-- Any `FRAME` consecutive cycles hold a consume cycle, as they pass every place in the frame. -/
theorem exists_consume_in_frame {s : State} (hlegal : Legal s) (hnoPor : NoPor s) :
    ∃ k c, k < s.cfg.frame ∧ Reached k s c ∧ consume c = true := by
  have hframe : s.cfg.frame = 6 * s.cfg.dwell + s.cfg.u := rfl
  obtain ⟨-, -, -, hu⟩ := Config.ok_bounds hlegal.cfg
  have hphase := Multiplexer.framePhase_lt hlegal
  have hplace : ∃ k, k < s.cfg.frame ∧ (framePhase s + k) % s.cfg.frame = 6 * s.cfg.dwell := by
    obtain hbefore | hafter := Nat.lt_or_ge (6 * s.cfg.dwell) (framePhase s)
    · refine ⟨6 * s.cfg.dwell + s.cfg.frame - framePhase s, by omega, ?_⟩
      rw [Nat.add_sub_cancel' (by omega), Nat.add_mod_right, Nat.mod_eq_of_lt (by omega)]
    · refine ⟨6 * s.cfg.dwell - framePhase s, by omega, ?_⟩
      rw [Nat.add_sub_cancel' hafter, Nat.mod_eq_of_lt (by omega)]
  obtain ⟨k, hk, hmod⟩ := hplace
  obtain ⟨c, hc, hreached⟩ := Multiplexer.framePhase_after hlegal hnoPor k
  refine ⟨k, c, hk, hc, (Multiplexer.consume_iff_framePhase hc.legal).2 ?_⟩
  rw [hreached, hmod, hc.cfg]

/-- Settles O54: the next tick is `TICK_DIV` cycles away at least, and of the `FRAME < TICK_DIV` cycles after the first
tick one is a consume cycle. -/
theorem ticksNeverCoalesce : Obligations.TicksNeverCoalesce := by
  intro s a b i j hlegal hnoPor hij hafterA hafterB houtA houtB
  have hreachA := reached_of_after hlegal hnoPor hafterA
  have hreachB := reached_of_after hlegal hnoPor hafterB
  rw [TickGenerator.outputs_tickOut hreachA.noPor.1] at houtA
  rw [TickGenerator.outputs_tickOut hreachB.noPor.1] at houtB
  obtain ⟨n, rfl⟩ := Nat.exists_eq_add_of_le hij
  have hafter : After n (closeCycle a (operated a)) b := after_of_after_add hreachA.next.after hafterB
  have hperiod := tickDiv_le_of_ticks hreachA.legal hreachA.noPor houtA hafter houtB
  obtain ⟨k, c, hk, hc, hconsume⟩ := exists_consume_in_frame hreachA.next.legal hreachA.next.noPor
  obtain ⟨-, hframe, -, -⟩ := Config.ok_bounds hlegal.cfg
  rw [hreachA.cfg] at hperiod
  rw [hreachA.next.cfg] at hk
  exact ⟨i + 1 + k, c, by omega, by omega, after_add hreachA.next.after hc.after, hconsume⟩

/-! ### The latency of a pin -/

/-- Flops at the idle level 1 show the fall of their pin two samplings later and then no more, whatever the pin does
meanwhile. -/
theorem fell_sample_hold (p q : Bool) :
    let y := Synchroniser.hold true
    y.fell = false ∧ (y.sample false).fell = false ∧ ((y.sample false).sample p).fell = true ∧
      (((y.sample false).sample p).sample q).fell = false :=
  ⟨rfl, rfl, rfl, rfl⟩

/-- The same of the idle level 0 and a rise. -/
theorem rose_sample_hold (p q : Bool) :
    let y := Synchroniser.hold false
    y.rose = false ∧ (y.sample true).rose = false ∧ ((y.sample true).sample p).rose = true ∧
      (((y.sample true).sample p).sample q).rose = false :=
  ⟨rfl, rfl, rfl, rfl⟩

/-- The state after one cycle of a legal state without POR (`step_of_legal`). -/
def nextState (s : State) : State := closeCycle s (operated s)

theorem nextState_flops (s : State) :
    (nextState s).syncRst = s.syncRst.sample s.ports.pinRst ∧ (nextState s).syncPse = s.syncPse.sample s.ports.pinPse ∧
      (nextState s).syncRsm = s.syncRsm.sample s.ports.pinRsm := by
  obtain ⟨-, -, -, -, -, -, -, -, hrst, hpse, hrsm, -⟩ := closeCycle_fields s (operated s)
  exact ⟨hrst, hpse, hrsm⟩

/-- Of the cycle of `s` and the three that follow, `edge` is met in the second of those three alone. -/
def EdgeInSecondCycle (edge : State → Bool) (s : State) : Prop :=
  edge s = false ∧ edge (nextState s) = false ∧ edge (nextState (nextState s)) = true ∧
    edge (nextState (nextState (nextState s))) = false

theorem rstEdge_of_pin_low {s : State} (hidle : s.syncRst = ⟨true, true, true⟩) (hpin : s.ports.pinRst = false) :
    EdgeInSecondCycle rstEdge s := by
  simp only [EdgeInSecondCycle, rstEdge, nextState_flops, hidle, hpin]
  exact fell_sample_hold _ _

theorem pseEdge_of_pin_high {s : State} (hidle : s.syncPse = ⟨false, false, false⟩) (hpin : s.ports.pinPse = true) :
    EdgeInSecondCycle pseEdge s := by
  simp only [EdgeInSecondCycle, pseEdge, nextState_flops, hidle, hpin]
  exact rose_sample_hold _ _

theorem rsmEdge_of_pin_low {s : State} (hidle : s.syncRsm = ⟨true, true, true⟩) (hpin : s.ports.pinRsm = false) :
    EdgeInSecondCycle rsmEdge s := by
  simp only [EdgeInSecondCycle, rsmEdge, nextState_flops, hidle, hpin]
  exact fell_sample_hold _ _

theorem nextState_of_rstEdge {s : State} (h : rstEdge s = true) :
    (nextState s).time = TimeValue.zero ∧ (nextState s).tcnt = 0 :=
  ⟨(CycleStep.closeCycle_time s).trans (if_pos h), (TickGenerator.closeCycle_tcnt s).trans (if_pos h)⟩

theorem nextState_of_pseEdge {s : State} (h : pseEdge s = true) (hrsm : rsmEdge s = false) :
    (nextState s).run = false := by
  rw [nextState, HostController.closeCycle_run, hrsm, h]
  rfl

theorem nextState_of_rsmEdge {s : State} (h : rsmEdge s = true) : (nextState s).run = true :=
  (HostController.closeCycle_run s).trans (if_pos h)

/-- The three cycles in which a pin's level passes through its flops. -/
theorem after_three {s : State} (hlegal : Legal s) (hnoPor : NoPor s) :
    After 1 s (nextState s) ∧ After 2 s (nextState (nextState s)) ∧
      After 3 s (nextState (nextState (nextState s))) := by
  have hstart := Reached.start hlegal hnoPor
  exact ⟨hstart.next.after, hstart.next.next.after, hstart.next.next.next.after⟩

/-- Settles O50: the flops shift the level through, and the edge's action is that of the cycle it is seen in. -/
theorem pinEdgeActsThreeCyclesLater : Obligations.PinEdgeActsThreeCyclesLater := by
  intro s hlegal hnoPor
  obtain ⟨h1, h2, h3⟩ := after_three hlegal hnoPor
  refine ⟨fun hidle hpin => ?reset, fun hidle hpin => ?pause, fun hidle hpin => ?resume⟩
  case reset =>
    obtain ⟨e0, e1, e2, e3⟩ := rstEdge_of_pin_low hidle hpin
    exact ⟨_, _, _, h1, h2, h3, e0, e1, e2, e3, nextState_of_rstEdge e2⟩
  case pause =>
    obtain ⟨e0, e1, e2, e3⟩ := pseEdge_of_pin_high hidle hpin
    exact ⟨_, _, _, h1, h2, h3, e0, e1, e2, e3, nextState_of_pseEdge e2⟩
  case resume =>
    obtain ⟨e0, e1, e2, e3⟩ := rsmEdge_of_pin_low hidle hpin
    exact ⟨_, _, _, h1, h2, h3, e0, e1, e2, e3, nextState_of_rsmEdge e2⟩

/-! ### Power-on reset -/

/-- With idle inputs POR leads back to the reset state. -/
theorem porState_reset : advancePorts (porState State.reset) = State.reset := rfl

/-- Settles O31: the reset state is a POR state, and those have the invariants. -/
theorem resetHasTheInvariants : Obligations.ResetHasTheInvariants := by
  refine ⟨?_, rfl, rfl, rfl, rfl, rfl, rfl, rfl, rfl⟩
  rw [← porState_reset]
  exact CycleStep.porState_inv (by decide)

/-- Settles O33: during POR the outputs read no register. -/
theorem outputsDuringPorAreConstant : Obligations.OutputsDuringPorAreConstant := by
  intro s hpor
  rw [Multiplexer.outputs_of_por hpor]
  exact ⟨rfl, rfl, rfl, rfl, rfl, rfl, rfl, rfl, rfl, rfl, rfl, rfl, rfl⟩

/-! ### The parameter checks -/

theorem ok_iff (c : Config) :
    c.ok = true ↔ 1 ≤ c.fClk ∧ c.tickDiv = c.fClk ∧ 1 ≤ c.dwell ∧ 1 ≤ c.u ∧ 6 * c.dwell + c.u < c.tickDiv := by
  have hdiv : c.tickDiv = c.fClk := rfl
  simp only [Config.ok, Config.frame, hdiv, Bool.and_eq_true, decide_eq_true_eq, true_and, and_assoc]

theorem step_of_bad_config {s : State} (h : s.cfg.ok = false) : step s = .refused .badConfiguration := by
  rw [step, clockEdge, h]
  rfl

/-- With an accepted configuration a step answers a next state or refuses the registers. -/
theorem step_ne_badConfiguration {s : State} (hcfg : s.cfg.ok = true) : step s ≠ .refused .badConfiguration := by
  intro hbad
  cases hpor : s.ports.por with
  | true => cases (step_of_por hcfg hpor).symm.trans hbad
  | false =>
    rw [StateRegisters.step_of_no_por hcfg hpor] at hbad
    split at hbad
    case isFalse => cases hbad
    case isTrue hregs =>
      cases htime : s.time.legal with
      | true =>
        rw [runCycle, execAll_agenda htime] at hbad
        cases hbad
      | false => cases (StateRegisters.runCycle_of_not_legal htime).symm.trans hbad

/-- Settles O48: the check of the configuration comes before POR and the registers are read, and refuses for a reason
that nothing after it gives. -/
theorem badConfigurationsAreRefused : Obligations.BadConfigurationsAreRefused :=
  ⟨ok_iff, fun _ =>
    ⟨fun hbad => Bool.eq_false_of_not_eq_true fun hcfg => step_ne_badConfiguration hcfg hbad, step_of_bad_config⟩⟩

end Sys2Proof.Proofs.ResetAndHazards
end
